-- ==== Sys2Proof/Word.lean ====
section
/-! DEFINITION. The plain data the whole model is written over: bytes, the 10-byte frame, the FSM
states, the input ports, the seven kinds of event, and the closed lists of result and class codes.
Only types stand here; everything that computes stands in Decode.lean or under Machine/. -/

namespace Sys2Proof

/-- A byte: an unsigned integer 0 to 255, 8 bits (00_scope.md R10). -/
abbrev Byte := BitVec 8

/-- The 80-bit packing of a frame: offset `k` at bits `8k+7` down to `8k` (R62, R90). -/
abbrev FrameWord := BitVec 80

/-- The ten bytes of a frame, one field per offset (R90): head 0, commandId 1, payload 2 to 7,
checksum 8, tail 9. Also the ten registers `buf[0..9]` (R21). -/
structure Frame where
  head : Byte
  cmd : Byte
  p2 : Byte
  p3 : Byte
  p4 : Byte
  p5 : Byte
  p6 : Byte
  p7 : Byte
  csum : Byte
  tail : Byte
deriving DecidableEq, Repr

/-- The FSM state `st` (R24). -/
inductive FsmState where
  /-- code 0: no request in progress, the stream is not consumed -/
  | idle
  /-- code 1: searching for the head sentinel -/
  | hunt
  /-- code 2: head stored, waiting for the commandId byte -/
  | cmd
  /-- code 3: head and commandId locked in, collecting offsets 2 to 9 -/
  | body
deriving DecidableEq, Repr

/-- The byte index `idx`, 0 to 9: the type has no room for the codes 10 to 15 that never occur
(R25, R112; 93_implementation_defined.md U8). -/
abbrev Index := Fin 10

/-- The returned byte count `cnt`, 0 to 10 (R36; the codes 11 to 15 never occur, R112, U8). -/
abbrev Count := Fin 11

/-- The input ports of R41, as their values stand on one step. -/
structure Pins where
  rst : Bool
  reqValid : Bool
  reqBuflen : Byte
  cancel : Bool
  inValid : Bool
  inData : Byte
  inZero : Bool
  inErr : Bool
  inErrinfo : Byte
deriving DecidableEq, Repr

/-- The seven kinds of event with their operands (R93). -/
inductive Event where
  | rst
  | req (n : Byte)
  | byte (b : Byte)
  | zero
  | ioerr (e : Byte)
  | cancel
  | wait
deriving DecidableEq, Repr

/-- The result status `rstat` (R35). The codes 6 and 7 are never produced and have no constructor. -/
inductive RStat where
  | none
  | ok
  | bufTooShort
  | portReadError
  | ioError
  | canceled
deriving DecidableEq, Repr

/-- The decoder class `dclass` (R39). The codes 6 and 7 are never produced and have no constructor. -/
inductive DClass where
  | short
  | data
  | reportingMode
  | notImplemented
  | badType
  | unknownSubtype
deriving DecidableEq, Repr

/-- The four failure classes among the decoder classes (R199). `STATUS_OTHER_CLASS` is one of them
(93_implementation_defined.md U1). -/
inductive FailureClass where
  | short
  | notImplemented
  | badType
  | unknownSubtype
deriving DecidableEq, Repr, Inhabited

/-- What is offered for decoding: the encodings of the three formats of the operation table (R105).
`pins` is an EVT or SYM8 operation, told by the port values together with the state before the
step (R94, R95); `dispatch` is a byte list given to the decoder's entry point `Decode` (R181, rows
`DEC_*`); `validity` is a FRAME80 word held against the validity patterns (R104, rows `VALID_*`). -/
inductive Encoded where
  | pins (st : FsmState) (idx : Index) (p : Pins)
  | dispatch (l : List Byte)
  | validity (w : FrameWord)
deriving DecidableEq, Repr

/-- The three formats of the operation table (R105). -/
inductive Format where
  | evt
  | sym8
  | frame80
deriving DecidableEq, Repr

end Sys2Proof
end

