-- ==== Sys2Proof/Config.lean ====
section
/-! DEFINITION. The protocol constants of R7, gathered in one table with the values the spec fixes
(92_eei_decisions.md D6), and the one open parameter, `STATUS_OTHER_CLASS` (R9). -/

namespace Sys2Proof.Config

/-- `HEAD`: the head sentinel, frame offset 0 (R7). -/
def head : Byte := 0xAA

/-- `TAIL`: the tail sentinel, frame offset 9 (R7). -/
def tail : Byte := 0xAB

/-- `CMD_DATA`: commandId of a data frame (R7). -/
def cmdData : Byte := 0xC0

/-- `CMD_STATUS`: commandId of a status frame (R7). -/
def cmdStatus : Byte := 0xC5

/-- `FRAME_LEN`: bytes in a frame (R7). -/
def frameLen : Nat := 10

/-- `FRAME_LEN` as the byte count a completed request returns (R36, R141). -/
def fullCount : Count := Fin.ofNat 11 frameLen

/-- `OFF_HEAD` (R7). -/
def offHead : Index := 0

/-- `OFF_CMD` (R7). -/
def offCmd : Index := 1

/-- `OFF_PAY_LO`: first payload offset, first summed byte (R7). -/
def offPayLo : Index := 2

/-- `OFF_PAY_HI`: last payload offset, last summed byte (R7). -/
def offPayHi : Index := 7

/-- `OFF_CSUM` (R7). -/
def offCsum : Index := 8

/-- `OFF_TAIL` (R7). -/
def offTail : Index := 9

/-- `BODY_LEN`: bytes collected after the lock (R7). -/
def bodyLen : Nat := 8

/-- `SUB_REPORTING_MODE` (R7). -/
def subReportingMode : Byte := 2

/-- `SUB_DEVICE_ID` (R7). -/
def subDeviceId : Byte := 5

/-- `SUB_WORKING_MODE` (R7). -/
def subWorkingMode : Byte := 6

/-- `SUB_FIRMWARE` (R7). -/
def subFirmware : Byte := 7

/-- `SUB_WORKING_PERIOD` (R7). -/
def subWorkingPeriod : Byte := 8

/-- `PM_SCALE`: divisor from a raw reading to µg/m³, applied by the host (R7, R196). -/
def pmScale : Nat := 10

/-- `STATUS_OTHER_CLASS` (R9, R189): the class of a status frame whose subtype is none of 2, 5, 6, 7, 8.
The spec leaves it an open parameter (default `DC_UNKNOWN_SUBTYPE`) that must be a failure class and on
which nothing proved may depend (93_implementation_defined.md U1), so it is a free value: no body.
DESIGN CHOICE, safe: notes/assumptions/1.md. -/
opaque statusOtherClass : FailureClass

end Sys2Proof.Config
end

