-- ==== Sys2Proof/Machine/Flags.lean ====
section
/-! DEFINITION. Flag computations on ten bytes (41_checksum_validity.md): the checksum, the validity
functions, and the comparisons that the registered flags `cs_ok` and `tl_ok` record. -/

namespace Sys2Proof.Machine

/-- `Checksum(f)`: the sum of bytes 2 to 7 modulo 256; 8-bit addition wraps, so reducing after every
addition and reducing once agree (R160, R161). -/
def checksum (f : Frame) : Byte :=
  f.p2 + f.p3 + f.p4 + f.p5 + f.p6 + f.p7

/-- `ChecksumValid(f)` (R164). -/
def checksumValid (f : Frame) : Bool :=
  f.csum == checksum f

/-- The recognized commandIds (R90, R95). -/
def isCommandId (b : Byte) : Bool :=
  b == Config.cmdData || b == Config.cmdStatus

/-- `IsValid(f)` (R166). -/
def isValid (f : Frame) : Bool :=
  f.head == Config.head && f.tail == Config.tail && isCommandId f.cmd && checksumValid f

/-- `DataIsValid(f)` (R167). -/
def dataIsValid (f : Frame) : Bool :=
  isValid f && f.cmd == Config.cmdData

/-- What `BODY_CSUM` writes to `cs_ok` (R28, R140). -/
def csumFlag (acc b : Byte) : Bool :=
  acc == b

/-- What `BODY_TAIL` writes to `tl_ok` (R29, R141). -/
def tailFlag (b : Byte) : Bool :=
  b == Config.tail

/-- One accumulation step of `BODY_PAYLOAD`: `(acc + b) mod 256` (R139, R161). -/
def accumulate (acc b : Byte) : Byte :=
  acc + b

/-- The length check of `REQ(n)`: `n < 10`, unsigned (R38, R163). -/
def tooShort (n : Byte) : Bool :=
  n.toNat < Config.frameLen

end Sys2Proof.Machine
end

