-- ==== Sys2Proof/Syntax.lean ====
section
/-! DEFINITION. The operations: one constructor for each row of spec/opcode_table.json, in the table's
order. The six EVT rows and eight SYM8 rows are the 14 operations of the block (R102); the ten FRAME80
rows are the decoder's dispatch cases (R103) and the two validity patterns (R104). -/

namespace Sys2Proof

/-- One operation with its operands. A SYM8 operation carries the received byte `b`; a FRAME80
operation carries the ten bytes it is applied to. Which operands a row admits is WellFormed.lean's. -/
inductive Instr where
  /-- `RST` (R250) -/
  | rst
  /-- `REQ(n)` (R132 for `n >= 10`, R212 for `n < 10`) -/
  | req (n : Byte)
  /-- `CANCEL` (R215) -/
  | cancel
  /-- `IOERR(e)` (R214) -/
  | ioerr (e : Byte)
  /-- `ZERO` (R213) -/
  | zero
  /-- `WAIT` (R133) -/
  | wait
  /-- `HUNT_HEAD` (R135) -/
  | huntHead (b : Byte)
  /-- `HUNT_SKIP` (R134) -/
  | huntSkip (b : Byte)
  /-- `CMD_ACCEPT_DATA` (R136) -/
  | cmdAcceptData (b : Byte)
  /-- `CMD_ACCEPT_STATUS` (R137) -/
  | cmdAcceptStatus (b : Byte)
  /-- `CMD_REJECT` (R138) -/
  | cmdReject (b : Byte)
  /-- `BODY_PAYLOAD` (R139) -/
  | bodyPayload (b : Byte)
  /-- `BODY_CSUM` (R140) -/
  | bodyCsum (b : Byte)
  /-- `BODY_TAIL` (R141) -/
  | bodyTail (b : Byte)
  /-- `DEC_DATA` (R183) -/
  | decData (f : Frame)
  /-- `DEC_STATUS_REPORTING_MODE` (R184) -/
  | decStatusReportingMode (f : Frame)
  /-- `DEC_STATUS_DEVICE_ID` (R185) -/
  | decStatusDeviceId (f : Frame)
  /-- `DEC_STATUS_WORKING_MODE` (R186) -/
  | decStatusWorkingMode (f : Frame)
  /-- `DEC_STATUS_FIRMWARE` (R187) -/
  | decStatusFirmware (f : Frame)
  /-- `DEC_STATUS_WORKING_PERIOD` (R188) -/
  | decStatusWorkingPeriod (f : Frame)
  /-- `DEC_STATUS_OTHER` (R189) -/
  | decStatusOther (f : Frame)
  /-- `DEC_BAD_TYPE` (R190) -/
  | decBadType (f : Frame)
  /-- `VALID_DATA` (R167) -/
  | validData (f : Frame)
  /-- `VALID_STATUS` (R166) -/
  | validStatus (f : Frame)
deriving DecidableEq, Repr

/-- The table's `format` member of the operation's row (R105). -/
def Instr.format : Instr → Format
  | .rst => .evt
  | .req _ => .evt
  | .cancel => .evt
  | .ioerr _ => .evt
  | .zero => .evt
  | .wait => .evt
  | .huntHead _ => .sym8
  | .huntSkip _ => .sym8
  | .cmdAcceptData _ => .sym8
  | .cmdAcceptStatus _ => .sym8
  | .cmdReject _ => .sym8
  | .bodyPayload _ => .sym8
  | .bodyCsum _ => .sym8
  | .bodyTail _ => .sym8
  | .decData _ => .frame80
  | .decStatusReportingMode _ => .frame80
  | .decStatusDeviceId _ => .frame80
  | .decStatusWorkingMode _ => .frame80
  | .decStatusFirmware _ => .frame80
  | .decStatusWorkingPeriod _ => .frame80
  | .decStatusOther _ => .frame80
  | .decBadType _ => .frame80
  | .validData _ => .frame80
  | .validStatus _ => .frame80

end Sys2Proof
end

