-- ==== Sys2Proof/WellFormed.lean ====
section
/-! DEFINITION. Which operands each row of the operation table admits (R95, R103, R104). An operation
that fails its check is no operation of the spec; the decoder never produces one. -/

namespace Sys2Proof

/-- The status subtypes with a row of their own (R103 rows 2 to 6). -/
def isListedSubtype (b : Byte) : Bool :=
  b == Config.subReportingMode || b == Config.subDeviceId || b == Config.subWorkingMode
    || b == Config.subFirmware || b == Config.subWorkingPeriod

/-- A status frame of the given subtype (R103). -/
def isStatusFrame (sub : Byte) (f : Frame) : Bool :=
  f.cmd == Config.cmdStatus && f.p2 == sub

/-- The operand condition of each row: the value condition on `b` (R95), the dispatch bytes (R103), the
fixed bytes and the checksum constraint of the validity patterns (R104). -/
def Instr.wf : Instr → Bool
  | .rst => true
  | .req _ => true
  | .cancel => true
  | .ioerr _ => true
  | .zero => true
  | .wait => true
  | .huntHead b => b == Config.head
  | .huntSkip b => b != Config.head
  | .cmdAcceptData b => b == Config.cmdData
  | .cmdAcceptStatus b => b == Config.cmdStatus
  | .cmdReject b => b != Config.cmdData && b != Config.cmdStatus
  | .bodyPayload _ => true
  | .bodyCsum _ => true
  | .bodyTail _ => true
  | .decData f => f.cmd == Config.cmdData
  | .decStatusReportingMode f => isStatusFrame Config.subReportingMode f
  | .decStatusDeviceId f => isStatusFrame Config.subDeviceId f
  | .decStatusWorkingMode f => isStatusFrame Config.subWorkingMode f
  | .decStatusFirmware f => isStatusFrame Config.subFirmware f
  | .decStatusWorkingPeriod f => isStatusFrame Config.subWorkingPeriod f
  | .decStatusOther f => f.cmd == Config.cmdStatus && !isListedSubtype f.p2
  | .decBadType f => f.cmd != Config.cmdData && f.cmd != Config.cmdStatus
  | .validData f =>
      f.head == Config.head && f.cmd == Config.cmdData && f.tail == Config.tail
        && f.csum == Machine.checksum f
  | .validStatus f =>
      f.head == Config.head && f.cmd == Config.cmdStatus && f.tail == Config.tail
        && f.csum == Machine.checksum f

end Sys2Proof
end

