-- ==== Sys2Proof/Decode.lean ====
section
/-! DEFINITION. The three decoders of the block and the encoder: port values to an event (R94) and an
event byte to an operation (R95); a byte list to a decoder row (R103, R181); a frame word to a validity
row (R104). Total; every rejection has a name. The encoder follows, written from the same tables. -/

namespace Sys2Proof

/-! ### Frames as registers, lists and words -/

/-- `f[k]`, the byte at frame offset `k` (R12, R73). -/
def Frame.get (f : Frame) (k : Index) : Byte :=
  match k with
  | 0 => f.head
  | 1 => f.cmd
  | 2 => f.p2
  | 3 => f.p3
  | 4 => f.p4
  | 5 => f.p5
  | 6 => f.p6
  | 7 => f.p7
  | 8 => f.csum
  | 9 => f.tail

/-- `f` with byte `b` at offset `k`: the one-register buffer write `buf[k] <- b` (R12, R69). -/
def Frame.set (f : Frame) (k : Index) (b : Byte) : Frame :=
  match k with
  | 0 => { f with head := b }
  | 1 => { f with cmd := b }
  | 2 => { f with p2 := b }
  | 3 => { f with p3 := b }
  | 4 => { f with p4 := b }
  | 5 => { f with p5 := b }
  | 6 => { f with p6 := b }
  | 7 => { f with p7 := b }
  | 8 => { f with csum := b }
  | 9 => { f with tail := b }

/-- Ten zero bytes (R49). -/
def Frame.zero : Frame := ⟨0, 0, 0, 0, 0, 0, 0, 0, 0, 0⟩

/-- `bytes[0..9]`: the frame in arrival order (R11, R60). -/
def Frame.bytes (f : Frame) : List Byte :=
  [f.head, f.cmd, f.p2, f.p3, f.p4, f.p5, f.p6, f.p7, f.csum, f.tail]

/-- The frame a list of exactly ten bytes is; no other list is a frame (R96, R181). -/
def Frame.ofBytes : List Byte → Option Frame
  | [b0, b1, b2, b3, b4, b5, b6, b7, b8, b9] => some ⟨b0, b1, b2, b3, b4, b5, b6, b7, b8, b9⟩
  | _ => none

/-- The 80-bit packing, offset 9 leftmost, `frame[8k+7:8k] = f[k]` (R62, R90, R191). -/
def Frame.toWord (f : Frame) : FrameWord :=
  f.head.setWidth 80 ||| f.cmd.setWidth 80 <<< 8 ||| f.p2.setWidth 80 <<< 16
    ||| f.p3.setWidth 80 <<< 24 ||| f.p4.setWidth 80 <<< 32 ||| f.p5.setWidth 80 <<< 40
    ||| f.p6.setWidth 80 <<< 48 ||| f.p7.setWidth 80 <<< 56 ||| f.csum.setWidth 80 <<< 64
    ||| f.tail.setWidth 80 <<< 72

/-- The frame whose packing is `w` (R62, R90). -/
def Frame.ofWord (w : FrameWord) : Frame :=
  { head := w.extractLsb' 0 8
    cmd := w.extractLsb' 8 8
    p2 := w.extractLsb' 16 8
    p3 := w.extractLsb' 24 8
    p4 := w.extractLsb' 32 8
    p5 := w.extractLsb' 40 8
    p6 := w.extractLsb' 48 8
    p7 := w.extractLsb' 56 8
    csum := w.extractLsb' 64 8
    tail := w.extractLsb' 72 8 }

/-! ### The decoders -/

/-- Why nothing is decoded. -/
inductive Reject where
  /-- A list of fewer than ten bytes: the decoder's `BufferTooShort`, class `DC_SHORT` (R181). -/
  | short
  /-- A list of more than ten bytes: `Decode` is undefined there and a model refuses (R181, U4). -/
  | tooLong
  /-- The word matches neither validity pattern: `IsValid` is 0 (R104, R166). -/
  | notValid (f : Frame)
deriving DecidableEq, Repr

/-- The one event a step takes, from the port values and the state before it: the eight lines of R94 in
their order, which is the priority of R224. -/
def selectEvent (st : FsmState) (p : Pins) : Event :=
  if p.rst then .rst
  else if st == .idle && p.reqValid then .req p.reqBuflen
  else if st == .idle then .wait
  else if p.cancel then .cancel
  else if p.inValid && p.inErr then .ioerr p.inErrinfo
  else if p.inValid && p.inZero then .zero
  else if p.inValid then .byte p.inData
  else .wait

/-- Which of the eight byte-level operations a `BYTE(b)` is (R95). In `IDLE`, where `BYTE` is not accepted,
the step is `WAIT` (R93, U18). In `BODY` with `idx` 0 or 1, which R26 rules out, no row of R95 or R130
applies and the step is `WAIT` as well: notes/assumptions/8.md. -/
def refineByte (st : FsmState) (idx : Index) (b : Byte) : Instr :=
  match st with
  | .idle => .wait
  | .hunt => if b == Config.head then .huntHead b else .huntSkip b
  | .cmd =>
      if b == Config.cmdData then .cmdAcceptData b
      else if b == Config.cmdStatus then .cmdAcceptStatus b
      else .cmdReject b
  | .body =>
      if Config.offPayLo ≤ idx ∧ idx ≤ Config.offPayHi then .bodyPayload b
      else if idx = Config.offCsum then .bodyCsum b
      else if idx = Config.offTail then .bodyTail b
      else .wait

/-- The operation of an event: `BYTE` is refined, every other event is its own operation (R102, R131). -/
def decodeEvent (st : FsmState) (idx : Index) : Event → Instr
  | .rst => .rst
  | .req n => .req n
  | .byte b => refineByte st idx b
  | .zero => .zero
  | .ioerr e => .ioerr e
  | .cancel => .cancel
  | .wait => .wait

/-- The decoder row of ten bytes, selected by offsets 1 and 2 alone (R103, R182). -/
def decodeFrame (f : Frame) : Instr :=
  if f.cmd == Config.cmdData then .decData f
  else if f.cmd == Config.cmdStatus then
    if f.p2 == Config.subReportingMode then .decStatusReportingMode f
    else if f.p2 == Config.subDeviceId then .decStatusDeviceId f
    else if f.p2 == Config.subWorkingMode then .decStatusWorkingMode f
    else if f.p2 == Config.subFirmware then .decStatusFirmware f
    else if f.p2 == Config.subWorkingPeriod then .decStatusWorkingPeriod f
    else .decStatusOther f
  else .decBadType f

/-- The decoder row of a byte list: the length check comes before any look at the bytes (R181, R226). -/
def decodeList (l : List Byte) : Except Reject Instr :=
  match Frame.ofBytes l with
  | some f => .ok (decodeFrame f)
  | none => if l.length < Config.frameLen then .error .short else .error .tooLong

/-- The mask of the validity patterns: all bits of head, commandId and tail (R104). -/
def validityMask : FrameWord :=
  Frame.toWord { Frame.zero with head := 0xFF, cmd := 0xFF, tail := 0xFF }

/-- The match of the validity pattern of the given commandId, from the constants of R7 (R104). -/
def validityMatch (cmd : Byte) : FrameWord :=
  Frame.toWord { Frame.zero with head := Config.head, cmd := cmd, tail := Config.tail }

/-- The validity row a word matches: mask, match and checksum constraint (R104, R105). -/
def decodeValidity (w : FrameWord) : Except Reject Instr :=
  if w &&& validityMask == validityMatch Config.cmdData
      && (Frame.ofWord w).csum == Machine.checksum (Frame.ofWord w) then
    .ok (.validData (Frame.ofWord w))
  else if w &&& validityMask == validityMatch Config.cmdStatus
      && (Frame.ofWord w).csum == Machine.checksum (Frame.ofWord w) then
    .ok (.validStatus (Frame.ofWord w))
  else .error (.notValid (Frame.ofWord w))

/-- The decoder: total on everything that can be offered (R106). -/
def decode : Encoded → Except Reject Instr
  | .pins st idx p => .ok (decodeEvent st idx (selectEvent st p))
  | .dispatch l => decodeList l
  | .validity w => decodeValidity w

/-- The dispatch read from the table alone: mask and match of each FRAME80 row, non-default rows first
(R105), in the table's own words. Nothing calls it; it is what `decodeFrame` is held against. -/
def dispatchByMask (w : FrameWord) : Instr :=
  if w &&& 0x0000000000000000FF00 == 0x0000000000000000C000 then .decData (Frame.ofWord w)
  else if w &&& 0x00000000000000FFFF00 == 0x0000000000000002C500 then
    .decStatusReportingMode (Frame.ofWord w)
  else if w &&& 0x00000000000000FFFF00 == 0x0000000000000005C500 then
    .decStatusDeviceId (Frame.ofWord w)
  else if w &&& 0x00000000000000FFFF00 == 0x0000000000000006C500 then
    .decStatusWorkingMode (Frame.ofWord w)
  else if w &&& 0x00000000000000FFFF00 == 0x0000000000000007C500 then
    .decStatusFirmware (Frame.ofWord w)
  else if w &&& 0x00000000000000FFFF00 == 0x0000000000000008C500 then
    .decStatusWorkingPeriod (Frame.ofWord w)
  else if w &&& 0x0000000000000000FF00 == 0x0000000000000000C500 then
    .decStatusOther (Frame.ofWord w)
  else .decBadType (Frame.ofWord w)

/-! ### The encoder -/

/-- No port asserted. -/
def Pins.quiet : Pins :=
  { rst := false, reqValid := false, reqBuflen := 0, cancel := false, inValid := false, inData := 0,
    inZero := false, inErr := false, inErrinfo := 0 }

/-- The upstream offers the byte `b` and nothing else is asserted (R94 line 7). -/
def Pins.ofByte (b : Byte) : Pins :=
  { Pins.quiet with inValid := true, inData := b }

/-- The words of an operation: for EVT and SYM8 rows the state, the index and the port values of the
row's condition (where the row admits several, the first), for FRAME80 rows the ten bytes or the word. -/
def encode : Instr → Encoded
  | .rst => .pins .idle 0 { Pins.quiet with rst := true }
  | .req n => .pins .idle 0 { Pins.quiet with reqValid := true, reqBuflen := n }
  | .cancel => .pins .hunt 0 { Pins.quiet with cancel := true }
  | .ioerr e => .pins .hunt 0 { Pins.quiet with inValid := true, inErr := true, inErrinfo := e }
  | .zero => .pins .hunt 0 { Pins.quiet with inValid := true, inZero := true }
  | .wait => .pins .idle 0 Pins.quiet
  | .huntHead b => .pins .hunt 0 (Pins.ofByte b)
  | .huntSkip b => .pins .hunt 0 (Pins.ofByte b)
  | .cmdAcceptData b => .pins .cmd Config.offCmd (Pins.ofByte b)
  | .cmdAcceptStatus b => .pins .cmd Config.offCmd (Pins.ofByte b)
  | .cmdReject b => .pins .cmd Config.offCmd (Pins.ofByte b)
  | .bodyPayload b => .pins .body Config.offPayLo (Pins.ofByte b)
  | .bodyCsum b => .pins .body Config.offCsum (Pins.ofByte b)
  | .bodyTail b => .pins .body Config.offTail (Pins.ofByte b)
  | .decData f => .dispatch f.bytes
  | .decStatusReportingMode f => .dispatch f.bytes
  | .decStatusDeviceId f => .dispatch f.bytes
  | .decStatusWorkingMode f => .dispatch f.bytes
  | .decStatusFirmware f => .dispatch f.bytes
  | .decStatusWorkingPeriod f => .dispatch f.bytes
  | .decStatusOther f => .dispatch f.bytes
  | .decBadType f => .dispatch f.bytes
  | .validData f => .validity f.toWord
  | .validStatus f => .validity f.toWord

/-! ### Words as spec/opcode_table.json numbers them -/

/-- The state and index in which a SYM8 word is read when nothing else tells: `0xAA` in `HUNT`, the two
command IDs in `CMD`, any other byte in `HUNT`. The table gives these in a row's `state` member, not in
its bits. DESIGN CHOICE, safe: notes/assumptions/10.md. -/
def tableContext (b : Byte) : FsmState × Index :=
  if Machine.isCommandId b then (.cmd, Config.offCmd) else (.hunt, 0)

/-- A word of the table as it is offered to the decoder: no bits is nothing offered, up to 8 bits is a SYM8
byte, more is a FRAME80 word; a FRAME80 word that matches a validity row is read as that row, any other by
the dispatch. DESIGN CHOICE, safe: notes/assumptions/10.md. -/
def tableEncoded (nbits w : Nat) : Encoded :=
  if nbits = 0 then .pins .idle 0 Pins.quiet
  else if nbits ≤ 8 then
    .pins (tableContext (BitVec.ofNat 8 w)).1 (tableContext (BitVec.ofNat 8 w)).2
      (Pins.ofByte (BitVec.ofNat 8 w))
  else
    match decodeValidity (BitVec.ofNat 80 w) with
    | .ok _ => .validity (BitVec.ofNat 80 w)
    | .error _ => .dispatch (Frame.ofWord (BitVec.ofNat 80 w)).bytes

/-- The operation the decoder reads from a word of the table. -/
def decodeTableWord (nbits w : Nat) : Option Instr :=
  match decode (tableEncoded nbits w) with
  | .ok i => some i
  | .error _ => none

end Sys2Proof
end

