-- ==== Sys2Proof/Machine/State.lean ====
section
/-! DEFINITION. The state of the machine as plain data: the nine registers of R47, the environment that
the spec keeps outside the block (the undelivered stream of R48 and what the host does on each coming
step), and the model's own record of the combinational answers. Faults and refusals. Reset. -/

namespace Sys2Proof.Machine

/-- One stream event as the upstream holds it: the values it drives on `in_data`, `in_zero`, `in_err` and
`in_errinfo` (R41, R67). Which event it is, R94 lines 5 to 7 say. -/
structure Offer where
  data : Byte
  zero : Bool
  err : Bool
  errinfo : Byte
deriving DecidableEq, Repr

/-- The event `BYTE(b)` (R67). -/
def Offer.ofByte (b : Byte) : Offer := { data := b, zero := false, err := false, errinfo := 0 }

/-- The event `ZERO` (R67). -/
def Offer.ofZero : Offer := { data := 0, zero := true, err := false, errinfo := 0 }

/-- The event `IOERR(e)` (R67). -/
def Offer.ofIoerr (e : Byte) : Offer := { data := 0, zero := false, err := true, errinfo := e }

/-- One clock step as its surroundings drive it: the host's ports, and whether the upstream offers its
oldest event on this step or has "no bytes yet" (R41, R67). -/
structure Tick where
  rst : Bool
  reqValid : Bool
  reqBuflen : Byte
  cancel : Bool
  streamReady : Bool
deriving DecidableEq, Repr

/-- The host drives nothing and the upstream offers whatever it holds. -/
def Tick.quiet : Tick :=
  { rst := false, reqValid := false, reqBuflen := 0, cancel := false, streamReady := true }

/-- What happens next: a clock step, a call of the decoder's entry point `Decode` on a byte list (R181),
or a call of the validity checks on ten bytes given as their 80-bit word (R164 to R167; the two calls are
kept apart, R168). -/
inductive Cue where
  | clock (t : Tick)
  | decode (l : List Byte)
  | check (w : FrameWord)
deriving DecidableEq, Repr

/-- What the Frame Decoder answers: the class and the five taps (R180, R191 to R195). -/
structure Response where
  cls : DClass
  frame : FrameWord
  subtype : Byte
  pm25Raw : BitVec 16
  pm10Raw : BitVec 16
  devId : BitVec 16
deriving DecidableEq, Repr

/-- What the validity functions answer on ten bytes (R160, R164, R166, R167), with the comparisons they
are made of. -/
structure Validity where
  csCalc : Byte
  csumValid : Bool
  tailValid : Bool
  headOk : Bool
  cmdOk : Bool
  frameValid : Bool
  dataValid : Bool
deriving DecidableEq, Repr

structure State where
  /-- `st` (R24) -/
  st : FsmState
  /-- `idx` (R25) -/
  idx : Index
  /-- `buf[0..9]` (R21) -/
  buf : Frame
  /-- `acc` (R42) -/
  acc : Byte
  /-- `cs_ok` (R28) -/
  csOk : Bool
  /-- `tl_ok` (R29) -/
  tlOk : Bool
  /-- `rstat` (R35) -/
  rstat : RStat
  /-- `cnt` (R36) -/
  cnt : Count
  /-- `errinfo` (R37) -/
  errinfo : Byte
  /-- the events the upstream has not yet delivered, oldest first (R48) -/
  upstream : List Offer
  /-- what the host does on the coming steps, oldest first; when it is empty every step is a quiet clock
  step. DESIGN CHOICE, safe: notes/assumptions/2.md and 3.md. -/
  agenda : List Cue
  /-- the model's own: the last answer of `Decode`. DESIGN CHOICE, safe: notes/assumptions/4.md. -/
  decoded : Option Response
  /-- the model's own: the last answer of the validity functions. DESIGN CHOICE, safe:
  notes/assumptions/4.md. -/
  checked : Option Validity
deriving DecidableEq, Repr

/-- Why the machine stops with a fault: there is no reason. The spec's own faults (R210 to R215) are next
states, and for no other state and input does it say that the block stops (R106). -/
inductive Fault where
deriving DecidableEq, Repr

/-- Why no meaning is given. -/
inductive Refusal where
  /-- Raised by an arm of `exec` whose operation has no meaning yet. Safe. -/
  | notModelled (mnemonic : String)
  /-- Raised by a meaning whose operands its row excludes; the decoder never produces one. Safe:
  notes/assumptions/6.md. -/
  | illFormed
  /-- Raised by `step`: `Decode` is called on more than ten bytes, where the spec leaves it undefined and
  tells a model to refuse (R181, 93_implementation_defined.md U4). Safe: notes/assumptions/7.md. -/
  | listTooLong
deriving DecidableEq, Repr

/-- The machine right after `RST`: every register at the value of R49, nothing upstream, nothing on the
agenda, nothing answered. That a run starts here takes R254 (1) as done: notes/assumptions/9.md; the
empty lists and answers are a DESIGN CHOICE: notes/assumptions/21.md. -/
def State.reset : State :=
  { st := .idle
    idx := 0
    buf := Frame.zero
    acc := 0
    csOk := false
    tlOk := false
    rstat := .none
    cnt := 0
    errinfo := 0
    upstream := []
    agenda := []
    decoded := none
    checked := none }

end Sys2Proof.Machine
end

