-- ==== Sys2Proof/Machine/Operands.lean ====
section
/-! DEFINITION. What is read out of ten bytes: the field assembly and taps (R97 to R100, R191 to R195),
the decoder's classification (R181, R182), the value of a reading (R196), and the numeric codes (R24, R35,
R39). -/

namespace Sys2Proof.Machine

/-- `pm25_raw = {f[3], f[2]}`, low byte first (R97, R192). -/
def pm25Tap (f : Frame) : BitVec 16 := f.p3 ++ f.p2

/-- `pm10_raw = {f[5], f[4]}` (R98, R193). -/
def pm10Tap (f : Frame) : BitVec 16 := f.p5 ++ f.p4

/-- `dev_id = {f[7], f[6]}`, a packing and no meaning (R99, R194): notes/assumptions/15.md. -/
def devIdTap (f : Frame) : BitVec 16 := f.p7 ++ f.p6

/-- The subtype byte, frame offset 2 (R100, R195). -/
def subtypeTap (f : Frame) : Byte := f.p2

/-- The concentration in µg/m³ a raw reading stands for: the exact rational `r / 10`, formed by the host
(R196): notes/assumptions/23.md. -/
def concentration (r : BitVec 16) : Rat := (r.toNat : Rat) / (Config.pmScale : Rat)

/-- A failure class as a decoder class (R199). -/
def failureToClass : FailureClass → DClass
  | .short => .short
  | .notImplemented => .notImplemented
  | .badType => .badType
  | .unknownSubtype => .unknownSubtype

/-- The class of a status frame with an unlisted subtype: the open parameter (R9, R189). -/
def statusOtherClass : DClass := failureToClass Config.statusOtherClass

/-- `Decode10(f)` (R182). -/
def decode10 (f : Frame) : DClass :=
  if f.cmd == Config.cmdData then .data
  else if f.cmd == Config.cmdStatus then
    if f.p2 == Config.subReportingMode then .reportingMode
    else if f.p2 == Config.subDeviceId then .notImplemented
    else if f.p2 == Config.subWorkingMode then .notImplemented
    else if f.p2 == Config.subFirmware then .notImplemented
    else if f.p2 == Config.subWorkingPeriod then .notImplemented
    else statusOtherClass
  else .badType

/-- The answer on ten bytes once their class is known: the taps are driven for every class (R191 to R195). -/
def Response.ofFrame (c : DClass) (f : Frame) : Response :=
  { cls := c
    frame := f.toWord
    subtype := subtypeTap f
    pm25Raw := pm25Tap f
    pm10Raw := pm10Tap f
    devId := devIdTap f }

/-- The answer when fewer than ten bytes are available: `DC_SHORT`, every tap null (R33, R181). -/
def Response.short : Response :=
  { cls := .short, frame := 0, subtype := 0, pm25Raw := 0, pm10Raw := 0, devId := 0 }

/-- The answer of the validity functions on ten bytes (R160, R164, R166, R167). -/
def Validity.ofFrame (f : Frame) : Validity :=
  { csCalc := checksum f
    csumValid := checksumValid f
    tailValid := tailFlag f.tail
    headOk := f.head == Config.head
    cmdOk := isCommandId f.cmd
    frameValid := isValid f
    dataValid := dataIsValid f }

/-- The 2-bit code of `st` (R24). -/
def stCode : FsmState → BitVec 2
  | .idle => 0
  | .hunt => 1
  | .cmd => 2
  | .body => 3

/-- The 3-bit code of `rstat` (R35). -/
def rstatCode : RStat → BitVec 3
  | .none => 0
  | .ok => 1
  | .bufTooShort => 2
  | .portReadError => 3
  | .ioError => 4
  | .canceled => 5

/-- The 3-bit code of `dclass` (R39). -/
def dclassCode : DClass → BitVec 3
  | .short => 0
  | .data => 1
  | .reportingMode => 2
  | .notImplemented => 3
  | .badType => 4
  | .unknownSubtype => 5

end Sys2Proof.Machine
end

