-- ==== Sys2Proof/Machine/Ops.lean ====
section
/-! DEFINITION. The shared operations over the registers, each the block of simultaneous assignments of
one rule (R12); fault entry as one operation (R228) and the ways back from it; which operations a state
accepts (R93, R95). -/

namespace Sys2Proof.Machine

/-- `busy` (R32). -/
def State.busy (s : State) : Bool := s.st != .idle

/-- Storing the next byte of the candidate: `buf[idx] <- b` (R13, R139). -/
def State.storeAt (s : State) (k : Index) (b : Byte) : Frame := s.buf.set k b

/-- `RST`: every register takes its reset value (R49, R250). The upstream and the host are not the block's
and keep what they hold (R252). -/
def State.resetRegisters (s : State) : State :=
  { s with
    st := .idle
    idx := 0
    buf := Frame.zero
    acc := 0
    csOk := false
    tlOk := false
    rstat := .none
    cnt := 0
    errinfo := 0 }

/-- `REQ(n)` with `n >= 10`: a new head search (R132). It is also the return from a fault (R232). -/
def State.startRequest (s : State) : State :=
  { s with
    st := .hunt
    idx := 0
    acc := 0
    csOk := false
    tlOk := false
    rstat := .none
    cnt := 0
    errinfo := 0 }

/-- `REQ(n)` with `n < 10`: the fault `BufferTooShort`; `st` and `buf` are not written (R212). -/
def State.rejectRequest (s : State) : State :=
  { s with
    rstat := .bufTooShort
    cnt := 0
    errinfo := 0
    csOk := false
    tlOk := false
    acc := 0
    idx := 0 }

/-- Fault entry, `raise F(info)`: the request ends, `cnt` takes the old `idx`, `buf` and `acc` are
unchanged (R228). -/
def State.raise (s : State) (code : RStat) (info : Byte) : State :=
  { s with
    rstat := code
    cnt := s.idx.castSucc
    errinfo := info
    csOk := false
    tlOk := false
    idx := 0
    st := .idle }

/-- `HUNT_HEAD` (R135). -/
def State.storeHead (s : State) (b : Byte) : State :=
  { s with buf := s.storeAt Config.offHead b, idx := Config.offCmd, st := .cmd }

/-- The lock, `CMD_ACCEPT_DATA` and `CMD_ACCEPT_STATUS` (R136, R137). -/
def State.lock (s : State) (b : Byte) : State :=
  { s with buf := s.storeAt Config.offCmd b, idx := Config.offPayLo, acc := 0, st := .body }

/-- `CMD_REJECT`: both bytes are discarded and the head search restarts (R138). -/
def State.resynchronize (s : State) : State :=
  { s with idx := 0, st := .hunt }

/-- `BODY_PAYLOAD` (R139). -/
def State.storePayload (s : State) (b : Byte) : State :=
  { s with buf := s.storeAt s.idx b, acc := accumulate s.acc b, idx := s.idx + 1 }

/-- `BODY_CSUM` (R140). -/
def State.storeCsum (s : State) (b : Byte) : State :=
  { s with buf := s.storeAt Config.offCsum b, csOk := csumFlag s.acc b, idx := Config.offTail }

/-- `BODY_TAIL`, which completes the request (R141). -/
def State.complete (s : State) (b : Byte) : State :=
  { s with
    buf := s.storeAt Config.offTail b
    tlOk := tailFlag b
    rstat := .ok
    cnt := Config.fullCount
    idx := 0
    st := .idle }

/-- The decoder has answered with class `c` on the ten bytes `f`; no register changes (R180). -/
def State.recordResponse (s : State) (c : DClass) (f : Frame) : State :=
  { s with decoded := some (Response.ofFrame c f) }

/-- The decoder has answered `DC_SHORT` on a short list (R181). -/
def State.recordShort (s : State) : State :=
  { s with decoded := some Response.short }

/-- The validity functions have answered on the ten bytes `f`; no register changes (R164 to R167). -/
def State.recordValidity (s : State) (f : Frame) : State :=
  { s with checked := some (Validity.ofFrame f) }

/-- In which states an operation is accepted: the state columns of R93 and R95. The calls of the decoder
and of the checks are accepted in every state. -/
def accepts (st : FsmState) (idx : Index) : Instr → Bool
  | .rst => true
  | .req _ => st == .idle
  | .cancel => st != .idle
  | .ioerr _ => st != .idle
  | .zero => st != .idle
  | .wait => true
  | .huntHead _ => st == .hunt
  | .huntSkip _ => st == .hunt
  | .cmdAcceptData _ => st == .cmd
  | .cmdAcceptStatus _ => st == .cmd
  | .cmdReject _ => st == .cmd
  | .bodyPayload _ => st == .body && decide (Config.offPayLo ≤ idx) && decide (idx ≤ Config.offPayHi)
  | .bodyCsum _ => st == .body && idx == Config.offCsum
  | .bodyTail _ => st == .body && idx == Config.offTail
  | .decData _ => true
  | .decStatusReportingMode _ => true
  | .decStatusDeviceId _ => true
  | .decStatusWorkingMode _ => true
  | .decStatusFirmware _ => true
  | .decStatusWorkingPeriod _ => true
  | .decStatusOther _ => true
  | .decBadType _ => true
  | .validData _ => true
  | .validStatus _ => true

/-- The outcome of an operation whose effect is to go from `s` to `t`: where the state does not accept
it, it is no event of the run and the step is `WAIT` (R93, R130, U18; DEDUCED, safe:
notes/assumptions/5.md); operands its row excludes are refused (notes/assumptions/6.md). -/
def perform (i : Instr) (s t : State) : Host.Outcome State Fault Refusal :=
  if i.wf then
    if accepts s.st s.idx i then .next t else .next s
  else .refused .illFormed

end Sys2Proof.Machine
end

