-- ==== Sys2Proof/Machine/Decoder.lean ====
section
/-! DEFINITION. The meanings of the FRAME80 rows: the decoder's eight dispatch cases, each with the class
its own rule gives, and the two validity patterns. They change no register (R180, R210). -/

namespace Sys2Proof.Machine

/-- `DEC_DATA` (R183). -/
def execDecData (f : Frame) (s : State) : Host.Outcome State Fault Refusal :=
  perform (.decData f) s (s.recordResponse .data f)

/-- `DEC_STATUS_REPORTING_MODE` (R184). -/
def execDecStatusReportingMode (f : Frame) (s : State) : Host.Outcome State Fault Refusal :=
  perform (.decStatusReportingMode f) s (s.recordResponse .reportingMode f)

/-- `DEC_STATUS_DEVICE_ID` (R185). -/
def execDecStatusDeviceId (f : Frame) (s : State) : Host.Outcome State Fault Refusal :=
  perform (.decStatusDeviceId f) s (s.recordResponse .notImplemented f)

/-- `DEC_STATUS_WORKING_MODE` (R186). -/
def execDecStatusWorkingMode (f : Frame) (s : State) : Host.Outcome State Fault Refusal :=
  perform (.decStatusWorkingMode f) s (s.recordResponse .notImplemented f)

/-- `DEC_STATUS_FIRMWARE` (R187). -/
def execDecStatusFirmware (f : Frame) (s : State) : Host.Outcome State Fault Refusal :=
  perform (.decStatusFirmware f) s (s.recordResponse .notImplemented f)

/-- `DEC_STATUS_WORKING_PERIOD` (R188). -/
def execDecStatusWorkingPeriod (f : Frame) (s : State) : Host.Outcome State Fault Refusal :=
  perform (.decStatusWorkingPeriod f) s (s.recordResponse .notImplemented f)

/-- `DEC_STATUS_OTHER`: the class is the free value `STATUS_OTHER_CLASS` (R189). -/
def execDecStatusOther (f : Frame) (s : State) : Host.Outcome State Fault Refusal :=
  perform (.decStatusOther f) s (s.recordResponse statusOtherClass f)

/-- `DEC_BAD_TYPE` (R190). -/
def execDecBadType (f : Frame) (s : State) : Host.Outcome State Fault Refusal :=
  perform (.decBadType f) s (s.recordResponse .badType f)

/-- `VALID_DATA` (R104, R167). -/
def execValidData (f : Frame) (s : State) : Host.Outcome State Fault Refusal :=
  perform (.validData f) s (s.recordValidity f)

/-- `VALID_STATUS` (R104, R166). -/
def execValidStatus (f : Frame) (s : State) : Host.Outcome State Fault Refusal :=
  perform (.validStatus f) s (s.recordValidity f)

end Sys2Proof.Machine
end

