-- ==== Sys2Proof/Machine/Events.lean ====
section
/-! DEFINITION. The meanings of the EVT rows: reset, request, cancellation, stream faults, wait. -/

namespace Sys2Proof.Machine

/-- `RST` (R250). -/
def execRst (s : State) : Host.Outcome State Fault Refusal :=
  perform .rst s s.resetRegisters

/-- `REQ(n)`: R132 for `n >= 10`, R212 for `n < 10`. -/
def execReq (n : Byte) (s : State) : Host.Outcome State Fault Refusal :=
  perform (.req n) s (if tooShort n then s.rejectRequest else s.startRequest)

/-- `CANCEL`: `raise Canceled(0)` (R215). -/
def execCancel (s : State) : Host.Outcome State Fault Refusal :=
  perform .cancel s (s.raise .canceled 0)

/-- `IOERR(e)`: `raise IoError(e)` (R214). -/
def execIoerr (e : Byte) (s : State) : Host.Outcome State Fault Refusal :=
  perform (.ioerr e) s (s.raise .ioError e)

/-- `ZERO`: `raise PortReadError(0)` (R213). -/
def execZero (s : State) : Host.Outcome State Fault Refusal :=
  perform .zero s (s.raise .portReadError 0)

/-- `WAIT`: no state changes (R133). -/
def execWait (s : State) : Host.Outcome State Fault Refusal :=
  perform .wait s s

end Sys2Proof.Machine
end

