-- ==== Sys2Proof/Machine/Reader.lean ====
section
/-! DEFINITION. The meanings of the SYM8 rows: the frame reader's eight byte-level operations. The byte is
taken from the stream by the step that fetches it (Environment.lean). -/

namespace Sys2Proof.Machine

/-- `HUNT_HEAD` (R135). -/
def execHuntHead (b : Byte) (s : State) : Host.Outcome State Fault Refusal :=
  perform (.huntHead b) s (s.storeHead b)

/-- `HUNT_SKIP`: no state changes, the byte is lost (R134). -/
def execHuntSkip (b : Byte) (s : State) : Host.Outcome State Fault Refusal :=
  perform (.huntSkip b) s s

/-- `CMD_ACCEPT_DATA` (R136). -/
def execCmdAcceptData (b : Byte) (s : State) : Host.Outcome State Fault Refusal :=
  perform (.cmdAcceptData b) s (s.lock b)

/-- `CMD_ACCEPT_STATUS` (R137). -/
def execCmdAcceptStatus (b : Byte) (s : State) : Host.Outcome State Fault Refusal :=
  perform (.cmdAcceptStatus b) s (s.lock b)

/-- `CMD_REJECT` (R138). -/
def execCmdReject (b : Byte) (s : State) : Host.Outcome State Fault Refusal :=
  perform (.cmdReject b) s s.resynchronize

/-- `BODY_PAYLOAD` (R139). -/
def execBodyPayload (b : Byte) (s : State) : Host.Outcome State Fault Refusal :=
  perform (.bodyPayload b) s (s.storePayload b)

/-- `BODY_CSUM` (R140). -/
def execBodyCsum (b : Byte) (s : State) : Host.Outcome State Fault Refusal :=
  perform (.bodyCsum b) s (s.storeCsum b)

/-- `BODY_TAIL` (R141). -/
def execBodyTail (b : Byte) (s : State) : Host.Outcome State Fault Refusal :=
  perform (.bodyTail b) s (s.complete b)

end Sys2Proof.Machine
end

