-- ==== Sys2Proof/Machine/Dispatch.lean ====
section
/-! DEFINITION. One arm per operation, no fall-through arm (R131). -/

namespace Sys2Proof.Machine

def exec (i : Instr) (s : State) : Host.Outcome State Fault Refusal :=
  match i with
  | .rst => Sys2Proof.Machine.execRst s
  | .req n => Sys2Proof.Machine.execReq n s
  | .cancel => Sys2Proof.Machine.execCancel s
  | .ioerr e => Sys2Proof.Machine.execIoerr e s
  | .zero => Sys2Proof.Machine.execZero s
  | .wait => Sys2Proof.Machine.execWait s
  | .huntHead b => Sys2Proof.Machine.execHuntHead b s
  | .huntSkip b => Sys2Proof.Machine.execHuntSkip b s
  | .cmdAcceptData b => Sys2Proof.Machine.execCmdAcceptData b s
  | .cmdAcceptStatus b => Sys2Proof.Machine.execCmdAcceptStatus b s
  | .cmdReject b => Sys2Proof.Machine.execCmdReject b s
  | .bodyPayload b => Sys2Proof.Machine.execBodyPayload b s
  | .bodyCsum b => Sys2Proof.Machine.execBodyCsum b s
  | .bodyTail b => Sys2Proof.Machine.execBodyTail b s
  | .decData f => Sys2Proof.Machine.execDecData f s
  | .decStatusReportingMode f => Sys2Proof.Machine.execDecStatusReportingMode f s
  | .decStatusDeviceId f => Sys2Proof.Machine.execDecStatusDeviceId f s
  | .decStatusWorkingMode f => Sys2Proof.Machine.execDecStatusWorkingMode f s
  | .decStatusFirmware f => Sys2Proof.Machine.execDecStatusFirmware f s
  | .decStatusWorkingPeriod f => Sys2Proof.Machine.execDecStatusWorkingPeriod f s
  | .decStatusOther f => Sys2Proof.Machine.execDecStatusOther f s
  | .decBadType f => Sys2Proof.Machine.execDecBadType f s
  | .validData f => Sys2Proof.Machine.execValidData f s
  | .validStatus f => Sys2Proof.Machine.execValidStatus f s

end Sys2Proof.Machine
end

