-- ==== Sys2Proof/Machine/Environment.lean ====
section
/-! DEFINITION. Where a step gets its operation from: the port values of the step (R41, R94), the
destructive read of the stream (R13, R67), and how an encoded operation is put where the next step finds
it. -/

namespace Sys2Proof.Machine

/-- The port values of a clock step: the host's from the tick, the stream's from the oldest event the
upstream holds, offered when the upstream is ready (R41, R94). -/
def State.pins (s : State) (t : Tick) : Pins :=
  match s.upstream with
  | [] =>
    { rst := t.rst, reqValid := t.reqValid, reqBuflen := t.reqBuflen, cancel := t.cancel
      inValid := false, inData := 0, inZero := false, inErr := false, inErrinfo := 0 }
  | o :: _ =>
    { rst := t.rst, reqValid := t.reqValid, reqBuflen := t.reqBuflen, cancel := t.cancel
      inValid := t.streamReady, inData := o.data, inZero := o.zero, inErr := o.err
      inErrinfo := o.errinfo }

/-- When an offered stream event is accepted: `in_valid and in_ready and not cancel and not rst`, with
`in_ready = (st != IDLE)` (R32, R41). -/
def streamAccepted (st : FsmState) (p : Pins) : Bool :=
  p.inValid && st != .idle && !p.cancel && !p.rst

/-- `Next()`: what the upstream holds after a clock step. An accepted event is gone, an unaccepted one
stays (R48, R67, R93). -/
def State.streamAfter (s : State) (t : Tick) : List Offer :=
  if streamAccepted s.st (s.pins t) then s.upstream.tail else s.upstream

/-- What the coming step decodes. With nothing on the agenda it is a quiet clock step
(notes/assumptions/3.md). -/
def State.fetch (s : State) : Encoded :=
  match s.agenda with
  | .decode l :: _ => .dispatch l
  | .check w :: _ => .validity w
  | .clock t :: _ => .pins s.st s.idx (s.pins t)
  | [] => .pins s.st s.idx (s.pins Tick.quiet)

/-- The state once the step has taken its cue and its stream event, before the operation's own effect. No
register of the block changes here. -/
def State.advance (s : State) : State :=
  match s.agenda with
  | .decode _ :: r => { s with agenda := r }
  | .check _ :: r => { s with agenda := r }
  | .clock t :: r => { s with agenda := r, upstream := s.streamAfter t }
  | [] => { s with upstream := s.streamAfter Tick.quiet }

/-- The tick that drives the host's half of the given port values. -/
def Tick.ofPins (p : Pins) : Tick :=
  { rst := p.rst, reqValid := p.reqValid, reqBuflen := p.reqBuflen, cancel := p.cancel
    streamReady := p.inValid }

/-- The offer that drives the stream's half of the given port values. -/
def Offer.ofPins (p : Pins) : Offer :=
  { data := p.inData, zero := p.inZero, err := p.inErr, errinfo := p.inErrinfo }

/-- The encoded operation put where the next step finds it: its cue first on the agenda, its stream event
first upstream, and, since a byte's operation is chosen by them (R95), `st` and `idx` set. -/
def State.place (s : State) : Encoded → State
  | .pins st idx p =>
    { s with
      st := st
      idx := idx
      agenda := .clock (Tick.ofPins p) :: s.agenda
      upstream := if p.inValid then Offer.ofPins p :: s.upstream else s.upstream }
  | .dispatch l => { s with agenda := .decode l :: s.agenda }
  | .validity w => { s with agenda := .check w :: s.agenda }

end Sys2Proof.Machine
end

