-- ==== Sys2Proof/Machine/Step.lean ====
section
/-! DEFINITION. One step: take what is offered, decode it, run it (R15, R131). -/

namespace Sys2Proof.Machine

/-- One step. A decoded operation runs on the state that has taken its cue and its stream event. What
decodes to no operation is answered by its name: `Decode` of a short list is `DC_SHORT` (R181), ten bytes
that match no validity pattern get the checks' answers (R166; notes/assumptions/22.md), `Decode` of a long
list is refused (U4). -/
def step (s : State) : Host.Outcome State Fault Refusal :=
  match decode s.fetch with
  | .ok i => exec i s.advance
  | .error .short => .next s.advance.recordShort
  | .error .tooLong => .refused .listTooLong
  | .error (.notValid f) => .next (s.advance.recordValidity f)

/-- `s` with the operation of a word of spec/opcode_table.json put where `step` finds it next. -/
def State.withFetchWord (s : State) (nbits w : Nat) : State :=
  s.place (tableEncoded nbits w)

end Sys2Proof.Machine
end

