-- ==== Sys2Proof/Machine/Outputs.lean ====
section
/-! DEFINITION. The output ports of R41, every one a function of the state alone (R15): handshake and
status (R32, R35 to R37), the gate (R33), the validity flags (R30, R31), class and taps (R39, R40). -/

namespace Sys2Proof.Machine

/-- The output ports (R41). -/
structure Outputs where
  reqReady : Bool
  inReady : Bool
  busy : Bool
  done : Bool
  rstat : RStat
  cnt : Count
  errinfo : Byte
  frame : FrameWord
  csCalc : Byte
  csumValid : Bool
  tailValid : Bool
  headOk : Bool
  cmdOk : Bool
  frameValid : Bool
  dataValid : Bool
  dclass : DClass
  subtype : Byte
  pm25Raw : BitVec 16
  pm10Raw : BitVec 16
  devId : BitVec 16
deriving DecidableEq, Repr

/-- The exposure gate `G` (R33). -/
def State.gate (s : State) : Bool := s.rstat == .ok

/-- `done = (st == IDLE and rstat != RS_NONE)` (R32). -/
def State.done (s : State) : Bool := s.st == .idle && s.rstat != .none

/-- The decoder's answer at the ports: `Decode10(buf)` and the taps under the gate, `DC_SHORT` and nothing
otherwise (R39, R40, R181). -/
def State.response (s : State) : Response :=
  if s.gate then Response.ofFrame (decode10 s.buf) s.buf else Response.short

/-- The output ports in a state. -/
def State.outputs (s : State) : Outputs :=
  { reqReady := s.st == .idle
    inReady := s.st != .idle
    busy := s.busy
    done := s.done
    rstat := s.rstat
    cnt := s.cnt
    errinfo := s.errinfo
    frame := s.response.frame
    csCalc := if s.gate then checksum s.buf else 0
    csumValid := s.gate && s.csOk
    tailValid := s.gate && s.tlOk
    headOk := s.gate && s.buf.head == Config.head
    cmdOk := s.gate && isCommandId s.buf.cmd
    frameValid := s.gate && isValid s.buf
    dataValid := s.gate && dataIsValid s.buf
    dclass := s.response.cls
    subtype := s.response.subtype
    pm25Raw := s.response.pm25Raw
    pm10Raw := s.response.pm10Raw
    devId := s.response.devId }

end Sys2Proof.Machine
end

