-- ==== Sys2Proof/Machine/Script.lean ====
section
/-! DEFINITION. The machine at the level of events, `step : State x Event -> State` (R15), runs of events
(R76), the frame shorthands of the event script (R114), and how a script of events is loaded into the
agenda and the upstream so that the machine's own steps run it. -/

namespace Sys2Proof.Machine

/-- In which states an event is accepted (R93). -/
def eventAccepted (st : FsmState) : Event → Bool
  | .rst => true
  | .req _ => st == .idle
  | .byte _ => st != .idle
  | .zero => st != .idle
  | .ioerr _ => st != .idle
  | .cancel => st != .idle
  | .wait => true

/-- The step machine of R15: one event applied to a state. An event the state does not accept is a `WAIT`
(R93, U18). -/
def stepEvent (s : State) (ev : Event) : Host.Outcome State Fault Refusal :=
  exec (decodeEvent s.st s.idx ev) s

/-- A run: the events applied one at a time in their order (R76). -/
def runEvents : List Event → State → Host.Outcome State Fault Refusal
  | [], s => .next s
  | ev :: evs, s =>
    match stepEvent s ev with
    | .next t => runEvents evs t
    | .fault r => .fault r
    | .refused r => .refused r

/-- Every event of the run is accepted in the state it meets: the scripts of R113. -/
def acceptedRun : List Event → State → Bool
  | [], _ => true
  | ev :: evs, s =>
    eventAccepted s.st ev &&
      match stepEvent s ev with
      | .next t => acceptedRun evs t
      | .fault _ => false
      | .refused _ => false

/-- The clock step on which a script's event happens (R94). -/
def tickOf : Event → Tick
  | .rst => { Tick.quiet with rst := true, streamReady := false }
  | .req n => { Tick.quiet with reqValid := true, reqBuflen := n, streamReady := false }
  | .byte _ => Tick.quiet
  | .zero => Tick.quiet
  | .ioerr _ => Tick.quiet
  | .cancel => { Tick.quiet with cancel := true, streamReady := false }
  | .wait => { Tick.quiet with streamReady := false }

/-- The stream event a script's event takes from the upstream, if it is one (R67). -/
def offerOf : Event → Option Offer
  | .rst => none
  | .req _ => none
  | .byte b => some (Offer.ofByte b)
  | .zero => some Offer.ofZero
  | .ioerr e => some (Offer.ofIoerr e)
  | .cancel => none
  | .wait => none

/-- A script loaded in front of what is already on the agenda and upstream. -/
def State.load (s : State) (evs : List Event) : State :=
  { s with
    agenda := evs.map (fun ev => .clock (tickOf ev)) ++ s.agenda
    upstream := evs.filterMap offerOf ++ s.upstream }

/-- `FRAME cc p2 p3 p4 p5 p6 p7`: head, commandId, payload, computed checksum, tail (R114). -/
def frameOf (cc p2 p3 p4 p5 p6 p7 : Byte) : Frame :=
  { head := Config.head, cmd := cc, p2 := p2, p3 := p3, p4 := p4, p5 := p5, p6 := p6, p7 := p7
    csum := p2 + p3 + p4 + p5 + p6 + p7, tail := Config.tail }

/-- `DATAFRAME a b d`: PM2.5 raw, PM10 raw, device identifier, each low byte first (R114). -/
def dataFrameOf (a b d : BitVec 16) : Frame :=
  frameOf Config.cmdData (a.extractLsb' 0 8) (a.extractLsb' 8 8) (b.extractLsb' 0 8)
    (b.extractLsb' 8 8) (d.extractLsb' 0 8) (d.extractLsb' 8 8)

/-- `STATUSFRAME t p3 p4 p5 p6 p7` (R114). -/
def statusFrameOf (t p3 p4 p5 p6 p7 : Byte) : Frame :=
  frameOf Config.cmdStatus t p3 p4 p5 p6 p7

end Sys2Proof.Machine
end

