-- ==== Sys2Proof/Machine/Procedure.lean ====
section
/-! DEFINITION. The reader as a procedure over the stream, for comparison with the step rules: the source's
algorithm (R142) and the scanning function of the synchronization property (R143). Nothing of the machine
calls them. -/

namespace Sys2Proof.Machine

/-- What the scanning function answers on a byte sequence (R143). -/
inductive ScanResult where
  /-- it ends in head search -/
  | clean
  /-- it ends behind a head whose next byte has not come -/
  | pending
  /-- the first lock happens at position `k`, the commandId's -/
  | locked (k : Nat)
deriving DecidableEq, Repr

/-- The scan from position `k`; `afterHead` says that the byte before was taken as a head (R143). -/
def scanFrom (afterHead : Bool) (k : Nat) : List Byte → ScanResult
  | [] => if afterHead then .pending else .clean
  | b :: bs =>
    if afterHead then
      if isCommandId b then .locked k else scanFrom false (k + 1) bs
    else scanFrom (b == Config.head) (k + 1) bs

/-- `scan(N)` (R143). -/
def scan (bs : List Byte) : ScanResult := scanFrom false 0 bs

/-- What one clock step of a request brings the reader: what `read1()` waits on (R142). -/
inductive Arrival where
  /-- "no bytes yet": `read1()` goes on waiting -/
  | nothing
  /-- the upstream's next event -/
  | event (o : Offer)
  /-- the host's cancellation -/
  | cancel
deriving DecidableEq, Repr

/-- The arrivals of the clock steps `ts` while a request is busy, on the stream `os`; after them every step
brings the next event of the stream. A cancellation takes nothing from the stream (R225). -/
def arrivals : List Tick → List Offer → List Arrival
  | [], os => os.map .event
  | t :: ts, os =>
    if t.cancel then .cancel :: arrivals ts os
    else if t.streamReady then
      match os with
      | [] => .nothing :: arrivals ts []
      | o :: rest => .event o :: arrivals ts rest
    else .nothing :: arrivals ts os

/-- The stream event of an arrival, if it is one. -/
def Arrival.offer? : Arrival → Option Offer
  | .nothing => none
  | .event o => some o
  | .cancel => none

/-- The event a busy step takes when this arrives (R94 lines 4 to 8). -/
def Arrival.toEvent : Arrival → Event
  | .nothing => .wait
  | .event o => if o.err then .ioerr o.errinfo else if o.zero then .zero else .byte o.data
  | .cancel => .cancel

/-- The stream events among the arrivals, in order: what the stream still holds before them. -/
def unread (as : List Arrival) : List Offer := as.filterMap Arrival.offer?

/-- How the procedure ends on its arrivals. -/
inductive ReadOutcome where
  /-- nothing more arrives and the read blocks -/
  | blocked
  /-- it returns the status, the partial count and the error information; `rest` has not arrived yet -/
  | failed (status : RStat) (count : Nat) (info : Byte) (rest : List Arrival)
  /-- it returns ten bytes; `rest` has not arrived yet -/
  | returned (f : Frame) (rest : List Arrival)
deriving DecidableEq, Repr

/-- The last loop of the procedure: `todo` bytes are missing, `got` are in the buffer (R142). -/
def readBody (got : List Byte) : Nat → List Arrival → ReadOutcome
  | 0, as =>
    match Frame.ofBytes got with
    | some f => .returned f as
    | none => .blocked
  | _ + 1, [] => .blocked
  | todo + 1, .nothing :: as => readBody got (todo + 1) as
  | _ + 1, .cancel :: as => .failed .canceled got.length 0 as
  | todo + 1, .event o :: as =>
    if o.err then .failed .ioError got.length o.errinfo as
    else if o.zero then .failed .portReadError got.length 0 as
    else readBody (got ++ [o.data]) todo as

/-- The outer loop of the procedure: search for a head, then require a commandId (R142). -/
def readHeader (afterHead : Bool) : List Arrival → ReadOutcome
  | [] => .blocked
  | .nothing :: as => readHeader afterHead as
  | .cancel :: as => .failed .canceled afterHead.toNat 0 as
  | .event o :: as =>
    if o.err then .failed .ioError afterHead.toNat o.errinfo as
    else if o.zero then .failed .portReadError afterHead.toNat 0 as
    else if afterHead then
      if isCommandId o.data then readBody [Config.head, o.data] Config.bodyLen as
      else readHeader false as
    else readHeader (o.data == Config.head) as

/-- `ReadFrame(n)` on its arrivals: the length check comes before any read (R142, R226). -/
def readFrame (n : Byte) (as : List Arrival) : ReadOutcome :=
  if tooShort n then .failed .bufTooShort 0 0 as else readHeader false as

end Sys2Proof.Machine
end

