-- ==== Sys2Proof/Safety.lean ====
section
/-! DEFINITION. What claims call a sound state: the invariants of R50, and the words claims use for states
that differ in one part only. -/

namespace Sys2Proof.Machine

/-- The sum modulo 256 of the payload bytes already received, `buf[2]` to `buf[min(idx,8)-1]` (R43). -/
def receivedSum (f : Frame) (idx : Index) : Byte :=
  (if 2 < idx then f.p2 else 0) + (if 3 < idx then f.p3 else 0) + (if 4 < idx then f.p4 else 0)
    + (if 5 < idx then f.p5 else 0) + (if 6 < idx then f.p6 else 0) + (if 7 < idx then f.p7 else 0)

/-- R26, that is R50 (1): `st` and `idx` agree, and while busy the head and the commandId in the buffer are
the candidate's. -/
abbrev SequencerSound (s : State) : Prop :=
  (s.st = .idle → s.idx = 0) ∧ (s.st = .hunt → s.idx = 0) ∧ (s.st = .cmd → s.idx = 1) ∧
  (s.st = .body → 2 ≤ s.idx) ∧
  (s.st ≠ .idle → 1 ≤ s.idx → s.buf.head = Config.head) ∧
  (s.st ≠ .idle → 2 ≤ s.idx → s.buf.cmd = Config.cmdData ∨ s.buf.cmd = Config.cmdStatus)

/-- R43, that is R50 (2). -/
abbrev AccumulatorSound (s : State) : Prop :=
  s.st = .body → s.acc = receivedSum s.buf s.idx

/-- R50 (3), (4), (5): the result registers. -/
abbrev ResultSound (s : State) : Prop :=
  (s.rstat ≠ .none → s.st = .idle) ∧
  (s.st ≠ .idle → s.rstat = .none ∧ s.cnt = 0 ∧ s.errinfo = 0) ∧
  (s.rstat = .ok ↔ s.cnt = 10) ∧ (s.rstat = .bufTooShort → s.cnt = 0) ∧
  (s.rstat = .portReadError ∨ s.rstat = .ioError ∨ s.rstat = .canceled → s.cnt.val ≤ 9) ∧
  (s.errinfo ≠ 0 → s.rstat = .ioError)

/-- R50 (6): what a returned candidate is. -/
abbrev CandidateSound (s : State) : Prop :=
  s.rstat = .ok →
    s.buf.head = Config.head ∧ (s.buf.cmd = Config.cmdData ∨ s.buf.cmd = Config.cmdStatus) ∧
    s.csOk = checksumValid s.buf ∧ s.tlOk = (s.buf.tail == Config.tail) ∧ s.acc = checksum s.buf

/-- R50 (7), (8): when the registered flags are clear. -/
abbrev FlagsSound (s : State) : Prop :=
  (s.st = .idle → s.rstat ≠ .ok → s.csOk = false ∧ s.tlOk = false) ∧
  (s.st = .hunt ∨ s.st = .cmd → s.csOk = false ∧ s.tlOk = false) ∧
  (s.st = .body → s.idx ≤ 8 → s.csOk = false) ∧ (s.st = .body → s.tlOk = false)

/-- The clause that carries (6) through the last body byte: with nine bytes stored, `cs_ok` is already the
comparison on the buffer (R28, R140). It is no clause of R50. -/
abbrev ChecksumFlagSound (s : State) : Prop :=
  s.st = .body → s.idx = 9 → s.csOk = checksumValid s.buf

/-- The invariant: R50 (1) to (8) and the clause that makes it inductive. -/
structure State.Inv (s : State) : Prop where
  sequencer : SequencerSound s
  accumulator : AccumulatorSound s
  result : ResultSound s
  candidate : CandidateSound s
  flags : FlagsSound s
  checksumFlag : ChecksumFlagSound s

/-- The registers of the block agree, whatever surrounds it. -/
abbrev sameRegisters (s t : State) : Prop :=
  s.st = t.st ∧ s.idx = t.idx ∧ s.buf = t.buf ∧ s.acc = t.acc ∧ s.csOk = t.csOk ∧ s.tlOk = t.tlOk ∧
    s.rstat = t.rstat ∧ s.cnt = t.cnt ∧ s.errinfo = t.errinfo

/-- The next step is a clock step whose host and stream drive the tick `t`. -/
abbrev State.clocks (s : State) (t : Tick) : Prop :=
  s.agenda.head? = some (.clock t) ∨ (s.agenda = [] ∧ t = Tick.quiet)

/-- The port values offer the byte `b` and no event of higher priority while busy (R94 line 7). -/
abbrev offersByte (p : Pins) (b : Byte) : Prop :=
  p.rst = false ∧ p.cancel = false ∧ p.inValid = true ∧ p.inErr = false ∧ p.inZero = false ∧ p.inData = b

/-- What a step leaves in one place of two states: the same in both, or each as it was. -/
abbrev sameOrKept {α : Type} (before before' after after' : α) : Prop :=
  after = after' ∨ (after = before ∧ after' = before')

/-- `k` steps of the machine, stopping at the first stop. -/
abbrev runSteps (k : Nat) (s : State) : Host.Outcome State Fault Refusal :=
  Sys2Proof.core.run k s

/-- The coming steps are a clock step that offers a request in `IDLE` and the clock steps `ts`, none of them
a reset; after them every step is a quiet one. -/
abbrev State.requests (s : State) (r : Tick) (ts : List Tick) : Prop :=
  s.st = .idle ∧ s.agenda = .clock r :: ts.map .clock ∧ r.rst = false ∧ r.reqValid = true ∧
    ∀ t ∈ ts, t.rst = false

/-- None of the clock steps cancels. -/
abbrev uncanceled (ts : List Tick) : Prop := ∀ t ∈ ts, t.cancel = false

/-- After the first step and until `k` steps are done the block is busy. -/
abbrev busyUntil (k : Nat) (s : State) : Prop :=
  ∀ j, 0 < j → j < k → ∃ u, runSteps j s = .next u ∧ u.st ≠ .idle

/-- A clock step on which the host requests a frame with buffer length `n`. -/
abbrev requestTick (n : Byte) : Tick := { Tick.quiet with reqValid := true, reqBuflen := n }

/-- A clock step on which neither the host nor the upstream offers anything. -/
abbrev silentTick : Tick := { Tick.quiet with streamReady := false }

/-- The bytes as the upstream holds them. -/
abbrev offersOf (bs : List Byte) : List Offer := bs.map Offer.ofByte

/-- The integer sum of the payload bytes (R160). -/
abbrev payloadSum (f : Frame) : Nat :=
  f.p2.toNat + f.p3.toNat + f.p4.toNat + f.p5.toNat + f.p6.toNat + f.p7.toNat

/-- The frame with bit `j` of the byte at offset `k` flipped (R171). -/
abbrev flipBit (f : Frame) (k : Index) (j : Nat) : Frame :=
  f.set k (f.get k ^^^ BitVec.twoPow 8 j)

end Sys2Proof.Machine
end

