-- ==== Sys2Proof/Certificates/Slice0/Obligations.lean ====
section
/-! DEFINITION. The statements for the provers. Byte values are written out as the spec writes them, not
through Config. The equality `exec i s = .next { s with … }` is at once completion, result and frame. -/

open Sys2Proof Sys2Proof.Machine

/-! ### Reset, request, wait (EVT rows) -/

/-- R49: the reset value of every register, and every output after reset; the event `RST` leaves them from
any state. -/
def Obligations.ResetValuesAndOutputs : Prop :=
  (∀ s : State, ∃ t : State,
    exec .rst s = .next t ∧ sameRegisters t State.reset ∧ t.outputs = State.reset.outputs) ∧
  State.reset.st = .idle ∧ State.reset.idx = 0 ∧ (∀ k, State.reset.buf.get k = 0) ∧
  State.reset.acc = 0 ∧ State.reset.csOk = false ∧ State.reset.tlOk = false ∧
  State.reset.rstat = .none ∧ State.reset.cnt = 0 ∧ State.reset.errinfo = 0 ∧
  State.reset.outputs =
    { reqReady := true, inReady := false, busy := false, done := false, rstat := .none, cnt := 0
      errinfo := 0, frame := 0, csCalc := 0, csumValid := false, tailValid := false, headOk := false
      cmdOk := false, frameValid := false, dataValid := false, dclass := .short, subtype := 0
      pm25Raw := 0, pm10Raw := 0, devId := 0 }

/-- R250: `RST` is selected in any state whatever else is offered, nothing offered with it is accepted, it
sets every register to its reset value from any state, and a second `RST` changes nothing more. -/
def Obligations.RstResetsEveryRegister : Prop :=
  (∀ st idx p, p.rst = true →
    decode (.pins st idx p) = .ok .rst ∧ streamAccepted st p = false) ∧
  ∀ s : State, ∃ t : State,
    exec .rst s = .next t ∧
    t = { s with
          st := .idle, idx := 0, buf := ⟨0, 0, 0, 0, 0, 0, 0, 0, 0, 0⟩, acc := 0, csOk := false
          tlOk := false, rstat := .none, cnt := 0, errinfo := 0 } ∧
    exec .rst t = .next t ∧
    t.outputs.done = false ∧ t.outputs.busy = false ∧ t.outputs.reqReady = true ∧
    t.outputs.inReady = false

/-- R132: `REQ(n)` with `n >= 10` in `IDLE` starts a head search, the same for every such `n`; `buf` is not
written; no stream event is consumed on the step; a `REQ` while busy has no effect. -/
def Obligations.RequestStartsHeadSearch : Prop :=
  (∀ idx p, p.rst = false → p.reqValid = true →
    decode (.pins .idle idx p) = .ok (.req p.reqBuflen) ∧ streamAccepted .idle p = false) ∧
  (∀ (s : State) (n : Byte), s.st = .idle → 10 ≤ n.toNat → ∃ t : State,
    exec (.req n) s = .next t ∧ exec (.req 10) s = .next t ∧
    t = { s with
          st := .hunt, idx := 0, acc := 0, csOk := false, tlOk := false, rstat := .none, cnt := 0
          errinfo := 0 } ∧
    t.outputs.done = false ∧ t.outputs.busy = true ∧ t.outputs.inReady = true ∧
    t.outputs.reqReady = false) ∧
  (∀ (s : State) (n : Byte), s.st ≠ .idle → exec (.req n) s = .next s) ∧
  (∀ st idx p, st ≠ .idle → p.rst = false → p.reqValid = true → p.cancel = false →
    p.inValid = false → decode (.pins st idx p) = .ok .wait)

/-- R212: `REQ(n)` with `n < 10` ends on its own step as `BufferTooShort`: `st` stays `IDLE`, `buf` is
unchanged, nothing is consumed. -/
def Obligations.ShortRequestFaultsBeforeReading : Prop :=
  (∀ (s : State) (n : Byte), s.st = .idle → n.toNat < 10 → ∃ t : State,
    exec (.req n) s = .next t ∧
    t = { s with
          rstat := .bufTooShort, cnt := 0, errinfo := 0, csOk := false, tlOk := false, acc := 0
          idx := 0 } ∧
    t.outputs.done = true ∧ t.outputs.busy = false ∧ t.outputs.inReady = false ∧
    ∀ p, streamAccepted t.st p = false) ∧
  (∀ idx p, p.rst = false → p.reqValid = true →
    decode (.pins .idle idx p) = .ok (.req p.reqBuflen) ∧ streamAccepted .idle p = false)

/-- R133: `WAIT` changes nothing, is what a step is when nothing is offered (lines 3 and 8 of R94), and any
number of such steps leaves every register as it was. -/
def Obligations.WaitNeverChangesTheState : Prop :=
  (∀ s : State, exec .wait s = .next s) ∧
  (∀ idx p, p.rst = false → p.reqValid = false → decode (.pins .idle idx p) = .ok .wait) ∧
  (∀ st idx p, st ≠ .idle → p.rst = false → p.cancel = false → p.inValid = false →
    decode (.pins st idx p) = .ok .wait) ∧
  ∀ (k : Nat) (s : State) (rest : List Cue),
    s.agenda = List.replicate k (.clock silentTick) ++ rest →
    runSteps k s = .next { s with agenda := rest }

/-! ### The reader's byte operations (SYM8 rows) -/

/-- R134: in `HUNT` a byte other than `0xAA` is `HUNT_SKIP`: consumed, no state changes. -/
def Obligations.HuntSkipDiscardsTheByte : Prop :=
  ∀ (s : State) (p : Pins) (b : Byte), s.st = .hunt → offersByte p b → b ≠ 0xAA →
    decode (.pins s.st s.idx p) = .ok (.huntSkip b) ∧ streamAccepted s.st p = true ∧
    exec (.huntSkip b) s = .next s

/-- R135: in `HUNT` the byte `0xAA` is `HUNT_HEAD`: stored at offset 0, the other offsets untouched. -/
def Obligations.HuntHeadStoresTheHead : Prop :=
  ∀ (s : State) (p : Pins), s.st = .hunt → offersByte p 0xAA →
    decode (.pins s.st s.idx p) = .ok (.huntHead 0xAA) ∧ streamAccepted s.st p = true ∧
    exec (.huntHead 0xAA) s =
      .next { s with buf := { s.buf with head := 0xAA }, idx := 1, st := .cmd }

/-- R136, R137: in `CMD` the bytes `0xC0` and `0xC5` lock: stored at offset 1, the accumulator cleared. From
then on no operation leads back to `HUNT` or `CMD`: the request stays in `BODY` or ends. -/
def Obligations.CommandIdLocks : Prop :=
  (∀ (u v : State) (i : Instr), u.st = .body → exec i u = .next v → v.st = .body ∨ v.st = .idle) ∧
  ∀ (s : State) (p : Pins), s.st = .cmd →
    (offersByte p 0xC0 →
      decode (.pins s.st s.idx p) = .ok (.cmdAcceptData 0xC0) ∧ streamAccepted s.st p = true ∧
      exec (.cmdAcceptData 0xC0) s =
        .next { s with buf := { s.buf with cmd := 0xC0 }, idx := 2, acc := 0, st := .body }) ∧
    (offersByte p 0xC5 →
      decode (.pins s.st s.idx p) = .ok (.cmdAcceptStatus 0xC5) ∧ streamAccepted s.st p = true ∧
      exec (.cmdAcceptStatus 0xC5) s =
        .next { s with buf := { s.buf with cmd := 0xC5 }, idx := 2, acc := 0, st := .body })

/-- R138: in `CMD` any other byte, `0xAA` included, is `CMD_REJECT`: it is not stored, the head search
restarts, and the next byte is examined as in `HUNT`. -/
def Obligations.OtherByteAfterHeadResynchronizes : Prop :=
  ∀ (s : State) (p : Pins) (b : Byte), s.st = .cmd → offersByte p b → b ≠ 0xC0 → b ≠ 0xC5 →
    decode (.pins s.st s.idx p) = .ok (.cmdReject b) ∧ streamAccepted s.st p = true ∧
    ∃ t : State, exec (.cmdReject b) s = .next t ∧ t = { s with idx := 0, st := .hunt } ∧
      ∀ (q : Pins) (c : Byte), offersByte q c →
        decode (.pins t.st t.idx q) =
          if c = 0xAA then .ok (.huntHead c) else .ok (.huntSkip c)

/-- R139: in `BODY` with `idx` 2 to 7 every byte is `BODY_PAYLOAD`: stored at `idx`, added to the
accumulator modulo 256, `idx` one more, nothing else changed. -/
def Obligations.PayloadByteIsStoredAndSummed : Prop :=
  ∀ (s : State) (p : Pins) (b : Byte), s.st = .body → 2 ≤ s.idx.val → s.idx.val ≤ 7 →
    offersByte p b →
    decode (.pins s.st s.idx p) = .ok (.bodyPayload b) ∧ streamAccepted s.st p = true ∧
    ∃ t : State, exec (.bodyPayload b) s = .next t ∧
      (∀ k, t.buf.get k = if k = s.idx then b else s.buf.get k) ∧
      t.acc.toNat = (s.acc.toNat + b.toNat) % 256 ∧ t.idx.val = s.idx.val + 1 ∧
      t = { s with buf := t.buf, acc := t.acc, idx := t.idx }

/-- R140: in `BODY` with `idx` 8 every byte is `BODY_CSUM`: stored at offset 8, `cs_ok` takes the
comparison with the accumulator, the accumulator is unchanged, and no mismatch is raised. -/
def Obligations.ChecksumByteIsStoredAndCompared : Prop :=
  ∀ (s : State) (p : Pins) (b : Byte), s.st = .body → s.idx = 8 → offersByte p b →
    decode (.pins s.st s.idx p) = .ok (.bodyCsum b) ∧ streamAccepted s.st p = true ∧
    exec (.bodyCsum b) s =
      .next { s with buf := { s.buf with csum := b }, csOk := decide (s.acc = b), idx := 9 }

/-- R141: in `BODY` with `idx` 9 every byte is `BODY_TAIL`: stored at offset 9, `tl_ok` takes the
comparison with `0xAB`, the request completes, every frame output goes live on this step, and no stream
event is accepted after it. -/
def Obligations.TailByteCompletesTheRequest : Prop :=
  ∀ (s : State) (p : Pins) (b : Byte), s.st = .body → s.idx = 9 → offersByte p b →
    decode (.pins s.st s.idx p) = .ok (.bodyTail b) ∧ streamAccepted s.st p = true ∧
    ∃ t : State, exec (.bodyTail b) s = .next t ∧
      t = { s with
            buf := { s.buf with tail := b }, tlOk := decide (b = 0xAB), rstat := .ok, cnt := 10
            idx := 0, st := .idle } ∧
      t.outputs =
        { reqReady := true, inReady := false, busy := false, done := true, rstat := .ok, cnt := 10
          errinfo := s.errinfo, frame := t.buf.toWord, csCalc := checksum t.buf
          csumValid := s.csOk, tailValid := decide (b = 0xAB)
          headOk := decide (s.buf.head = 0xAA)
          cmdOk := decide (s.buf.cmd = 0xC0 ∨ s.buf.cmd = 0xC5), frameValid := isValid t.buf
          dataValid := dataIsValid t.buf, dclass := decode10 t.buf, subtype := s.buf.p2
          pm25Raw := s.buf.p3 ++ s.buf.p2, pm10Raw := s.buf.p5 ++ s.buf.p4
          devId := s.buf.p7 ++ s.buf.p6 } ∧
      ∀ q, streamAccepted t.st q = false

/-! ### Faults and cancellation -/

/-- R213, R214, R215, R228: while busy, in every phase, the three ending events are selected from the ports
and enter the fault: status, `cnt` the old `idx`, error information, flags cleared, `IDLE`; `buf` and `acc`
unchanged; every frame output null. A cancellation takes precedence over any offered stream event, which is
not accepted. -/
def Obligations.FaultEntryRecordsAndEndsTheRequest : Prop :=
  (∀ st idx p, st ≠ .idle → p.rst = false →
    (p.cancel = true → decode (.pins st idx p) = .ok .cancel ∧ streamAccepted st p = false) ∧
    (p.cancel = false → p.inValid = true → p.inErr = true →
      decode (.pins st idx p) = .ok (.ioerr p.inErrinfo) ∧ streamAccepted st p = true) ∧
    (p.cancel = false → p.inValid = true → p.inErr = false → p.inZero = true →
      decode (.pins st idx p) = .ok .zero ∧ streamAccepted st p = true)) ∧
  ∀ (s : State) (i : Instr) (code : RStat) (info : Byte), s.st ≠ .idle →
    (i = .zero ∧ code = .portReadError ∧ info = 0) ∨ (i = .ioerr info ∧ code = .ioError) ∨
      (i = .cancel ∧ code = .canceled ∧ info = 0) →
    ∃ t : State, exec i s = .next t ∧
      t = { s with
            rstat := code, cnt := s.idx.castSucc, errinfo := info, csOk := false, tlOk := false
            idx := 0, st := .idle } ∧
      t.outputs =
        { reqReady := true, inReady := false, busy := false, done := true, rstat := code
          cnt := s.idx.castSucc, errinfo := info, frame := 0, csCalc := 0, csumValid := false
          tailValid := false, headOk := false, cmdOk := false, frameValid := false
          dataValid := false, dclass := .short, subtype := 0, pm25Raw := 0, pm10Raw := 0
          devId := 0 }

/-- R225: a step with `cancel` while busy is the cancellation, whatever stream event is offered; that event
stays with the upstream. -/
def Obligations.CancelLeavesTheOfferedEventUpstream : Prop :=
  ∀ (s : State) (t : Tick), s.clocks t → s.st ≠ .idle → t.rst = false → t.cancel = true →
    ∃ u : State, step s = .next u ∧ u.rstat = .canceled ∧ u.cnt = s.idx.castSucc ∧ u.st = .idle ∧
      u.idx = 0 ∧ u.buf = s.buf ∧ u.upstream = s.upstream

/-- R223: with `cancel` held across a request made in `IDLE`, the request is accepted, and the next step
ends it as cancelled with `cnt = 0` and nothing consumed. -/
def Obligations.CancelHeldAcrossARequest : Prop :=
  ∀ (s : State) (t₁ t₂ : Tick) (rest : List Cue),
    s.st = .idle → s.agenda = .clock t₁ :: .clock t₂ :: rest →
    t₁.rst = false → t₁.reqValid = true → 10 ≤ t₁.reqBuflen.toNat → t₁.cancel = true →
    t₂.rst = false → t₂.cancel = true →
    (∃ u : State, step s = .next u ∧ u.st = .hunt ∧ u.upstream = s.upstream) ∧
    ∃ u : State, runSteps 2 s = .next u ∧ u.st = .idle ∧ u.rstat = .canceled ∧ u.cnt = 0 ∧
      u.upstream = s.upstream ∧ u.agenda = rest

/-- R252: a reset step leaves the upstream's events there, in order, whatever is offered with it. -/
def Obligations.ResetStepLeavesTheStream : Prop :=
  ∀ (s : State) (t : Tick), s.clocks t → t.rst = true →
    ∃ u : State, step s = .next u ∧ sameRegisters u State.reset ∧ u.upstream = s.upstream

/-! ### Which operation a step is -/

/-- R94: the event of a step, line by line: the first line whose condition holds selects it. -/
def Obligations.EventSelectionFollowsThePriority : Prop :=
  ∀ (st : FsmState) (p : Pins),
    (p.rst = true → selectEvent st p = .rst) ∧
    (p.rst = false → st = .idle → p.reqValid = true → selectEvent st p = .req p.reqBuflen) ∧
    (p.rst = false → st = .idle → p.reqValid = false → selectEvent st p = .wait) ∧
    (p.rst = false → st ≠ .idle → p.cancel = true → selectEvent st p = .cancel) ∧
    (p.rst = false → st ≠ .idle → p.cancel = false → p.inValid = true → p.inErr = true →
      selectEvent st p = .ioerr p.inErrinfo) ∧
    (p.rst = false → st ≠ .idle → p.cancel = false → p.inValid = true → p.inErr = false →
      p.inZero = true → selectEvent st p = .zero) ∧
    (p.rst = false → st ≠ .idle → p.cancel = false → p.inValid = true → p.inErr = false →
      p.inZero = false → selectEvent st p = .byte p.inData) ∧
    (p.rst = false → st ≠ .idle → p.cancel = false → p.inValid = false → selectEvent st p = .wait)

/-- R95: the eight byte-level operations, each decoded from exactly the states and bytes of its row. -/
def Obligations.ByteOperationsAreTheirRows : Prop :=
  ∀ (st : FsmState) (idx : Index) (p : Pins) (b : Byte), st ≠ .idle → offersByte p b →
    (decode (.pins st idx p) = .ok (.huntHead b) ↔ st = .hunt ∧ b = 0xAA) ∧
    (decode (.pins st idx p) = .ok (.huntSkip b) ↔ st = .hunt ∧ b ≠ 0xAA) ∧
    (decode (.pins st idx p) = .ok (.cmdAcceptData b) ↔ st = .cmd ∧ b = 0xC0) ∧
    (decode (.pins st idx p) = .ok (.cmdAcceptStatus b) ↔ st = .cmd ∧ b = 0xC5) ∧
    (decode (.pins st idx p) = .ok (.cmdReject b) ↔ st = .cmd ∧ b ≠ 0xC0 ∧ b ≠ 0xC5) ∧
    (decode (.pins st idx p) = .ok (.bodyPayload b) ↔
      st = .body ∧ 2 ≤ idx.val ∧ idx.val ≤ 7) ∧
    (decode (.pins st idx p) = .ok (.bodyCsum b) ↔ st = .body ∧ idx = 8) ∧
    (decode (.pins st idx p) = .ok (.bodyTail b) ↔ st = .body ∧ idx = 9)

/-- R106: for every state and every combination of port values an operation is decoded, and every ten bytes
have a decoder row. (In `BODY` with `idx` 0 or 1, which R26 rules out, the operation of a byte is the
model's choice: notes/assumptions/8.md.) -/
def Obligations.EveryOfferIsAnOperation : Prop :=
  (∀ st (idx : Index) p, ∃ i, decode (.pins st idx p) = .ok i) ∧
  ∀ f : Frame, ∃ i, decode (.dispatch f.bytes) = .ok i ∧ i.format = .frame80

/-- R93, R95: what the decoder gives is well formed and accepted in the state it was decoded for. -/
def Obligations.DecodedOperationsAreAccepted : Prop :=
  (∀ e i, decode e = .ok i → i.wf = true) ∧
  (∀ st idx p i, decode (.pins st idx p) = .ok i → accepts st idx i = true ∧ i.format ≠ .frame80) ∧
  (∀ l i, decode (.dispatch l) = .ok i → i.format = .frame80) ∧
  ∀ w i, decode (.validity w) = .ok i → i.format = .frame80

/-- Decode and encode agree for every well-formed operation of the table, with every operand (R95, R103,
R104). -/
def Obligations.DecodeOfEncodeIsTheOperation : Prop :=
  ∀ i : Instr, i.wf = true → decode (encode i) = .ok i

/-- R103, R105: the decoder's dispatch is the first matching row of the table's masks, on every 80-bit
word. -/
def Obligations.DispatchIsTheFirstMatchingRow : Prop :=
  ∀ w : FrameWord, decode (.dispatch (Frame.ofWord w).bytes) = .ok (dispatchByMask w)

/-- R104: a word is a valid frame exactly when it matches the mask and match of `VALID_DATA` or of
`VALID_STATUS` and its checksum byte satisfies the constraint of R101. -/
def Obligations.ValidityPatternsAreIsValid : Prop :=
  ∀ f : Frame,
    let constraint := f.csum.toNat = payloadSum f % 256
    (f.toWord &&& 0xFF00000000000000FFFF = 0xAB00000000000000C0AA ∧ constraint ↔
      isValid f = true ∧ f.cmd = 0xC0) ∧
    (f.toWord &&& 0xFF00000000000000FFFF = 0xAB00000000000000C5AA ∧ constraint ↔
      isValid f = true ∧ f.cmd = 0xC5) ∧
    (isValid f = true →
      decode (.validity f.toWord) =
        if f.cmd = 0xC0 then .ok (.validData f) else .ok (.validStatus f))

/-- Some words written out from the spec's encodings decode to the operations they stand for (R95, R103,
R104). In which state a bare byte is read, that a longer word is held against the validity rows before the
dispatch, and that a shorter word stands for a frame of zeros above it, are the model's choices:
notes/assumptions/10.md. -/
def Obligations.WrittenWordsDecode : Prop :=
  decodeTableWord 8 0xAA = some (.huntHead 0xAA) ∧
  decodeTableWord 8 0xC0 = some (.cmdAcceptData 0xC0) ∧
  decodeTableWord 8 0xC5 = some (.cmdAcceptStatus 0xC5) ∧
  decodeTableWord 80 0xFF1D60A10A3A04D4C0AA =
    some (.decData ⟨0xAA, 0xC0, 0xD4, 0x04, 0x3A, 0x0A, 0xA1, 0x60, 0x1D, 0xFF⟩) ∧
  decodeTableWord 80 0xAB1D60A10A3A04D4C0AA =
    some (.validData ⟨0xAA, 0xC0, 0xD4, 0x04, 0x3A, 0x0A, 0xA1, 0x60, 0x1D, 0xAB⟩) ∧
  decodeTableWord 24 0x05C500 = some (.decStatusDeviceId ⟨0, 0xC5, 5, 0, 0, 0, 0, 0, 0, 0⟩)

/-- R131: a step applies exactly the decoded operation, on the state that has used up its cue and, where
the offered stream event is accepted (R41), has taken it from the upstream. That cues and stream are lists in
State, that calls of `Decode` and of the checks are steps, and what a step is on an empty agenda, are the
model's choices: notes/assumptions/2.md and 3.md. -/
def Obligations.StepRunsTheDecodedOperation : Prop :=
  (∀ (s : State) (i : Instr), decode s.fetch = .ok i → step s = exec i s.advance) ∧
  (∀ (s : State) (t : Tick), s.clocks t →
    s.fetch = .pins s.st s.idx (s.pins t) ∧
    s.advance =
      { s with
        agenda := s.agenda.tail
        upstream :=
          if streamAccepted s.st (s.pins t) = true then s.upstream.tail else s.upstream }) ∧
  (∀ (s : State) (l : List Byte) (rest : List Cue), s.agenda = .decode l :: rest →
    s.fetch = .dispatch l ∧ s.advance = { s with agenda := rest }) ∧
  ∀ (s : State) (w : FrameWord) (rest : List Cue), s.agenda = .check w :: rest →
    s.fetch = .validity w ∧ s.advance = { s with agenda := rest }

/-- R93, R130: a well-formed operation that the state does not accept does not happen, the step is a
wait; operands that an operation's row excludes are refused by name, and so is `Decode` of more than ten
bytes. That the first holds of the byte-level operations too is the model's reading
(notes/assumptions/5.md), the refusals are its choices (notes/assumptions/6.md and 7.md). -/
def Obligations.OperationsOutsideTheirRowDoNothing : Prop :=
  (∀ (s : State) (i : Instr), i.wf = true → accepts s.st s.idx i = false → exec i s = .next s) ∧
  (∀ (s : State) (e : Byte), s.st = .idle →
    exec .zero s = .next s ∧ exec (.ioerr e) s = .next s ∧ exec .cancel s = .next s) ∧
  (∀ (s : State) (i : Instr), i.wf = false → exec i s = .refused .illFormed) ∧
  ∀ (s : State) (l : List Byte), s.agenda.head? = some (.decode l) → 10 < l.length →
    step s = .refused .listTooLong

/-! ### Checksum and validity -/

/-- R160: the checksum is the integer sum of bytes 2 to 7 modulo 256; bytes 0, 1, 8, 9 are not summed; it is
the port `cs_calc` under the gate. -/
def Obligations.ChecksumIsThePayloadSumModulo256 : Prop :=
  (∀ s : State, s.outputs.csCalc = if s.rstat = .ok then checksum s.buf else 0) ∧
  ∀ f : Frame, (checksum f).toNat = payloadSum f % 256 ∧
    ∀ (k : Index) (b : Byte), k.val < 2 ∨ 7 < k.val → checksum (f.set k b) = checksum f

/-- R166, R167: the validity rows answer that the frame passes every check, the status row that it fails
the data check, and they change nothing else; the functions are the spec's conjunctions, and the ports show
them on the buffer under the gate. That the answer of a row is kept in `checked` is the model's choice:
notes/assumptions/4.md. -/
def Obligations.ValidityRowsAnswerTheChecks : Prop :=
  (∀ s : State,
    (s.outputs.frameValid = true ↔ s.rstat = .ok ∧ isValid s.buf = true) ∧
    (s.outputs.dataValid = true ↔ s.rstat = .ok ∧ dataIsValid s.buf = true)) ∧
  (∀ (s : State) (f : Frame), f.head = 0xAA → f.cmd = 0xC0 → f.tail = 0xAB → f.csum = checksum f →
    exec (.validData f) s =
      .next { s with
              checked := some
                { csCalc := f.csum, csumValid := true, tailValid := true, headOk := true
                  cmdOk := true, frameValid := true, dataValid := true } }) ∧
  (∀ (s : State) (f : Frame), f.head = 0xAA → f.cmd = 0xC5 → f.tail = 0xAB → f.csum = checksum f →
    exec (.validStatus f) s =
      .next { s with
              checked := some
                { csCalc := f.csum, csumValid := true, tailValid := true, headOk := true
                  cmdOk := true, frameValid := true, dataValid := false } }) ∧
  ∀ f : Frame,
    (checksumValid f = true ↔ f.csum = checksum f) ∧
    (isValid f = true ↔
      f.head = 0xAA ∧ f.tail = 0xAB ∧ (f.cmd = 0xC0 ∨ f.cmd = 0xC5) ∧ checksumValid f = true) ∧
    (dataIsValid f = true ↔ isValid f = true ∧ f.cmd = 0xC0)

/-- A call of the validity checks on any ten bytes, valid or not, answers with all of them on those bytes,
takes nothing from the stream and changes no register (R160, R164 to R168). That the answer is kept in
`checked`, and that ten bytes of no validity row have one, is the model's: notes/assumptions/4.md and
22.md. -/
def Obligations.CheckCallAnswersOnAnyTenBytes : Prop :=
  ∀ (s : State) (f : Frame) (rest : List Cue), s.agenda = .check f.toWord :: rest →
    step s =
      .next { s with
              agenda := rest
              checked := some
                { csCalc := checksum f, csumValid := checksumValid f
                  tailValid := decide (f.tail = 0xAB), headOk := decide (f.head = 0xAA)
                  cmdOk := decide (f.cmd = 0xC0 ∨ f.cmd = 0xC5), frameValid := isValid f
                  dataValid := dataIsValid f } }

/-- R170: a frame with the sentinels, a recognized commandId and a correctly computed checksum is valid. -/
def Obligations.CorrectFrameIsValid : Prop :=
  ∀ f : Frame, f.head = 0xAA → f.cmd = 0xC0 ∨ f.cmd = 0xC5 → f.tail = 0xAB →
    f.csum = checksum f → checksumValid f = true ∧ isValid f = true

/-- R171: one flipped bit of the payload moves the checksum by a power of two and is detected, as is one of
the checksum byte; one of the head, the commandId or the tail leaves the checksum valid and the frame
invalid. -/
def Obligations.SingleBitFlipIsDetected : Prop :=
  ∀ (f : Frame) (k : Index) (j : Nat), j < 8 →
    (2 ≤ k.val → k.val ≤ 7 →
      checksum (flipBit f k j) = checksum f + BitVec.twoPow 8 j ∨
      checksum (flipBit f k j) = checksum f - BitVec.twoPow 8 j) ∧
    (checksumValid f = true → 2 ≤ k.val → k.val ≤ 8 → checksumValid (flipBit f k j) = false) ∧
    (checksumValid f = true → k.val ≤ 1 ∨ k.val = 9 → checksumValid (flipBit f k j) = true) ∧
    (isValid f = true → k.val ≤ 1 ∨ k.val = 9 → isValid (flipBit f k j) = false)

/-- R172: a change of the payload whose byte-sum change is a multiple of 256 passes the checksum; two
swapped payload bytes are such a change. -/
def Obligations.CompensatingChangesAreUndetected : Prop :=
  (∀ f g : Frame, f.csum = g.csum → payloadSum f % 256 = payloadSum g % 256 →
    checksumValid f = checksumValid g) ∧
  ∀ (f : Frame) (j k : Index), 2 ≤ j.val → j.val ≤ 7 → 2 ≤ k.val → k.val ≤ 7 →
    checksumValid ((f.set j (f.get k)).set k (f.get j)) = checksumValid f

/-- R162: six `BODY_PAYLOAD` steps from `acc = 0` leave the checksum of the six bytes, whatever their
order. -/
def Obligations.AccumulatorReachesTheChecksum : Prop :=
  ∀ (s : State) (f g : Frame), s.st = .body → s.idx = 2 → s.acc = 0 →
    List.Perm [g.p2, g.p3, g.p4, g.p5, g.p6, g.p7] [f.p2, f.p3, f.p4, f.p5, f.p6, f.p7] →
    ∃ t : State,
      runEvents [.byte g.p2, .byte g.p3, .byte g.p4, .byte g.p5, .byte g.p6, .byte g.p7] s = .next t ∧
      t.st = .body ∧ t.idx = 8 ∧ t.acc = checksum f

/-! ### The decoder (FRAME80 rows) -/

/-- R183 to R188, R190: each dispatch row answers with its class and the taps of its ten bytes, in every
state and whatever the other bytes are, and changes no register; the codes of the classes. (The row of the
unlisted subtypes has a statement of its own.) That the answer is kept in `decoded` is the model's choice:
notes/assumptions/4.md. -/
def Obligations.DispatchRowsAnswerTheirClass : Prop :=
  [DClass.data, .reportingMode, .notImplemented, .badType].map dclassCode = [1, 2, 3, 4] ∧
  ∀ (s : State) (f : Frame),
    (f.cmd = 0xC0 →
      decode10 f = .data ∧
      exec (.decData f) s = .next { s with decoded := some (Response.ofFrame .data f) }) ∧
    (f.cmd = 0xC5 → f.p2 = 0x02 →
      decode10 f = .reportingMode ∧
      exec (.decStatusReportingMode f) s =
        .next { s with decoded := some (Response.ofFrame .reportingMode f) }) ∧
    (f.cmd = 0xC5 → f.p2 = 0x05 →
      decode10 f = .notImplemented ∧
      exec (.decStatusDeviceId f) s =
        .next { s with decoded := some (Response.ofFrame .notImplemented f) }) ∧
    (f.cmd = 0xC5 → f.p2 = 0x06 →
      decode10 f = .notImplemented ∧
      exec (.decStatusWorkingMode f) s =
        .next { s with decoded := some (Response.ofFrame .notImplemented f) }) ∧
    (f.cmd = 0xC5 → f.p2 = 0x07 →
      decode10 f = .notImplemented ∧
      exec (.decStatusFirmware f) s =
        .next { s with decoded := some (Response.ofFrame .notImplemented f) }) ∧
    (f.cmd = 0xC5 → f.p2 = 0x08 →
      decode10 f = .notImplemented ∧
      exec (.decStatusWorkingPeriod f) s =
        .next { s with decoded := some (Response.ofFrame .notImplemented f) }) ∧
    (f.cmd ≠ 0xC0 → f.cmd ≠ 0xC5 →
      decode10 f = .badType ∧
      exec (.decBadType f) s = .next { s with decoded := some (Response.ofFrame .badType f) })

/-- R9, R189: a status frame of an unlisted subtype runs and gets the open class, which is a failure class
whatever it is. The spec's default `DC_UNKNOWN_SUBTYPE` is one value of it and nothing here depends on it:
notes/assumptions/1.md. That the answer is kept in `decoded` is the model's choice:
notes/assumptions/4.md. -/
def Obligations.UnlistedSubtypeGetsAFailureClass : Prop :=
  (∀ (s : State) (f : Frame), f.cmd = 0xC5 → f.p2 ≠ 2 → f.p2 ≠ 5 → f.p2 ≠ 6 → f.p2 ≠ 7 → f.p2 ≠ 8 →
    decode10 f = statusOtherClass ∧
    exec (.decStatusOther f) s =
      .next { s with decoded := some (Response.ofFrame statusOtherClass f) }) ∧
  statusOtherClass ≠ .data ∧ statusOtherClass ≠ .reportingMode

/-- R181: `Decode` of fewer than ten bytes is `DC_SHORT` before any look at them, of ten bytes it is
`Decode10`; at the ports it is `Decode10(buf)` under the gate and `DC_SHORT` otherwise. A call takes
nothing from the stream and changes no register. (That the answer is kept in `decoded` is the model's:
notes/assumptions/4.md. Longer lists: `OperationsOutsideTheirRowDoNothing`.) -/
def Obligations.DecodeCallAnswersByLength : Prop :=
  (∀ (s : State) (l : List Byte) (rest : List Cue), s.agenda = .decode l :: rest →
    (l.length < 10 → step s = .next { s with agenda := rest, decoded := some Response.short }) ∧
    (∀ f : Frame, l = f.bytes →
      step s =
        .next { s with agenda := rest, decoded := some (Response.ofFrame (decode10 f) f) })) ∧
  Response.short.cls = .short ∧
  ∀ s : State,
    (s.rstat = .ok → s.outputs.dclass = decode10 s.buf) ∧
    (s.rstat ≠ .ok → s.outputs.dclass = .short)

/-- R200: the class depends on offsets 1 and 2 only, validity on every offset, and all four combinations of
success or failure class with valid or invalid occur. -/
def Obligations.ClassAndValidityAreIndependent : Prop :=
  (∀ f g : Frame, f.cmd = g.cmd → f.p2 = g.p2 → decode10 f = decode10 g) ∧
  (∀ k : Index, ∃ (f : Frame) (b : Byte), isValid f = true ∧ isValid (f.set k b) = false) ∧
  (∃ f, decode10 f = .data ∧ isValid f = true) ∧ (∃ f, decode10 f = .data ∧ isValid f = false) ∧
  (∃ f, decode10 f = .notImplemented ∧ isValid f = true) ∧
  ∃ f, decode10 f = .notImplemented ∧ isValid f = false

/-- R192 to R195: the taps at the ports under the gate, low byte first, and null without it. -/
def Obligations.TapsAreLittleEndianUnderTheGate : Prop :=
  ∀ s : State,
    (s.rstat = .ok →
      s.outputs.pm25Raw.toNat = s.buf.p2.toNat + 256 * s.buf.p3.toNat ∧
      s.outputs.pm10Raw.toNat = s.buf.p4.toNat + 256 * s.buf.p5.toNat ∧
      s.outputs.devId.toNat = s.buf.p6.toNat + 256 * s.buf.p7.toNat ∧
      s.outputs.subtype = s.buf.p2) ∧
    (s.rstat ≠ .ok →
      s.outputs.pm25Raw = 0 ∧ s.outputs.pm10Raw = 0 ∧ s.outputs.devId = 0 ∧ s.outputs.subtype = 0)

/-- R191, R62: bit `j` of the byte at offset `k` is bit `8k+j` of `frame` under the gate, and `frame` is 0
without it. -/
def Obligations.FramePortPacksTheBuffer : Prop :=
  ∀ s : State,
    (s.rstat = .ok → ∀ (k : Index) (j : Nat), j < 8 →
      s.outputs.frame.getLsbD (8 * k.val + j) = (s.buf.get k).getLsbD j) ∧
    (s.rstat ≠ .ok → s.outputs.frame = 0)

/-- R196, R198: the value of a reading is the exact rational a tenth of it; 104 is 10.4. -/
def Obligations.ReadingIsATenth : Prop :=
  (∀ r : BitVec 16, concentration r * 10 = (r.toNat : Rat)) ∧
  concentration (pm25Tap ⟨0xAA, 0xC0, 0x68, 0x00, 0, 0, 0, 0, 0x68, 0xAB⟩) = 104 / 10

/-! ### Outputs -/

/-- R32: handshake and status outputs are the stated functions of `st` and `rstat`. -/
def Obligations.HandshakeOutputs : Prop :=
  ∀ s : State,
    (s.outputs.busy = true ↔ s.st ≠ .idle) ∧ (s.outputs.reqReady = true ↔ s.st = .idle) ∧
    (s.outputs.inReady = true ↔ s.st ≠ .idle) ∧
    (s.outputs.done = true ↔ s.st = .idle ∧ s.rstat ≠ .none)

/-- R30, R31, R40: under the gate the validity flags and the data outputs are their functions of the
registers. -/
def Obligations.FrameOutputsUnderTheGate : Prop :=
  ∀ s : State, s.rstat = .ok →
    s.outputs.csumValid = s.csOk ∧ s.outputs.tailValid = s.tlOk ∧
    (s.outputs.headOk = true ↔ s.buf.head = 0xAA) ∧
    (s.outputs.cmdOk = true ↔ s.buf.cmd = 0xC0 ∨ s.buf.cmd = 0xC5) ∧
    s.outputs.frameValid = isValid s.buf ∧ s.outputs.dataValid = dataIsValid s.buf ∧
    s.outputs.frame = s.buf.toWord ∧ s.outputs.csCalc = checksum s.buf ∧
    s.outputs.subtype = s.buf.p2 ∧ s.outputs.pm25Raw = s.buf.p3 ++ s.buf.p2 ∧
    s.outputs.pm10Raw = s.buf.p5 ++ s.buf.p4 ∧ s.outputs.devId = s.buf.p7 ++ s.buf.p6

/-- R33: unless the status is `RS_OK` every output derived from `buf`, `cs_ok` or `tl_ok` has its null
value. -/
def Obligations.GateHidesTheBuffer : Prop :=
  ∀ s : State, s.rstat ≠ .ok →
    s.outputs =
      { reqReady := s.outputs.reqReady, inReady := s.outputs.inReady, busy := s.outputs.busy
        done := s.outputs.done, rstat := s.rstat, cnt := s.cnt, errinfo := s.errinfo, frame := 0
        csCalc := 0, csumValid := false, tailValid := false, headOk := false, cmdOk := false
        frameValid := false, dataValid := false, dclass := .short, subtype := 0, pm25Raw := 0
        pm10Raw := 0, devId := 0 }

/-- R165, R169 (and R30's last sentence): in every state that satisfies the invariant and holds a candidate,
the registered flags and the pure functions agree, head and commandId are good, and the frame outputs
reduce to the two flags. -/
def Obligations.RegisteredAndPureChecksAgree : Prop :=
  ∀ s : State, s.Inv → s.rstat = .ok →
    s.csOk = checksumValid s.buf ∧ s.tlOk = decide (s.buf.tail = 0xAB) ∧ s.acc = checksum s.buf ∧
    s.outputs.csCalc = s.acc ∧ s.outputs.csumValid = s.csOk ∧ s.outputs.tailValid = s.tlOk ∧
    s.outputs.headOk = true ∧ s.outputs.cmdOk = true ∧
    s.outputs.frameValid = (s.csOk && s.tlOk) ∧
    s.outputs.dataValid = (s.csOk && s.tlOk && decide (s.buf.cmd = 0xC0))

/-- R24, R35, R39: the numeric codes. -/
def Obligations.NumericCodes : Prop :=
  [FsmState.idle, .hunt, .cmd, .body].map stCode = [0, 1, 2, 3] ∧
  [RStat.none, .ok, .bufTooShort, .portReadError, .ioError, .canceled].map rstatCode =
    [0, 1, 2, 3, 4, 5] ∧
  [DClass.short, .data, .reportingMode, .notImplemented, .badType, .unknownSubtype].map dclassCode =
    [0, 1, 2, 3, 4, 5]

/-! ### The whole machine -/

/-- R50 and its model-side clause hold at reset. -/
def Obligations.ResetIsSound : Prop := State.reset.Inv

/-- R50 (with R26 and R43): every step keeps the invariant, from every state that has it. -/
def Obligations.StepKeepsTheInvariant : Prop :=
  ∀ s t : State, s.Inv → step s = .next t → t.Inv

/-- R130: where an operation is accepted, `st` and `idx` move as the transition table says. -/
def Obligations.TransitionsFollowTheTable : Prop :=
  ∀ (s t : State) (i : Instr), i.wf = true → accepts s.st s.idx i = true → exec i s = .next t →
    match i with
    | .rst => t.st = .idle ∧ t.idx = 0
    | .req n =>
        (10 ≤ n.toNat → t.st = .hunt ∧ t.idx = 0) ∧ (n.toNat < 10 → t.st = .idle ∧ t.idx = 0)
    | .cancel | .ioerr _ | .zero => t.st = .idle ∧ t.idx = 0
    | .huntHead _ => t.st = .cmd ∧ t.idx = 1
    | .cmdAcceptData _ | .cmdAcceptStatus _ => t.st = .body ∧ t.idx = 2
    | .cmdReject _ => t.st = .hunt ∧ t.idx = 0
    | .bodyPayload _ => t.st = .body ∧ t.idx.val = s.idx.val + 1
    | .bodyCsum _ => t.st = .body ∧ t.idx = 9
    | .bodyTail _ => t.st = .idle ∧ t.idx = 0
    | .wait | .huntSkip _ | .decData _ | .decStatusReportingMode _ | .decStatusDeviceId _
    | .decStatusWorkingMode _ | .decStatusFirmware _ | .decStatusWorkingPeriod _
    | .decStatusOther _ | .decBadType _ | .validData _ | .validStatus _ =>
        t.st = s.st ∧ t.idx = s.idx

/-- R22: a step changes the buffer only by storing the accepted byte at one offset, `0` in `HUNT`, `1` in
`CMD`, `idx` in `BODY`, or by a reset; every other offset keeps its byte. -/
def Obligations.OnlyStoringStepsWriteTheBuffer : Prop :=
  ∀ s t : State, step s = .next t →
    t.buf = s.buf ∨ (t.buf = Frame.zero ∧ ∃ k, s.clocks k ∧ k.rst = true) ∨
    ∃ (k : Index) (o : Offer), s.upstream = o :: t.upstream ∧ t.buf = s.buf.set k o.data ∧
      (s.st = .hunt ∧ k = 0 ∧ o.data = 0xAA ∨
        s.st = .cmd ∧ k = 1 ∧ (o.data = 0xC0 ∨ o.data = 0xC5) ∨
        s.st = .body ∧ k = s.idx ∧ 2 ≤ k.val)

/-- R22, R47, R200: no sequential rule reads `buf`, the flags, the result registers or the recorded answers:
two states that agree on `st`, `idx`, `acc` and the surroundings step to states that agree on them, and in
every other register the step either writes the same value in both or leaves each as it was. -/
def Obligations.SequencingIgnoresStoredBytes : Prop :=
  ∀ s s' t : State,
    s.st = s'.st → s.idx = s'.idx → s.acc = s'.acc → s.upstream = s'.upstream →
    s.agenda = s'.agenda → step s = .next t →
    ∃ t' : State, step s' = .next t' ∧ t.st = t'.st ∧ t.idx = t'.idx ∧ t.acc = t'.acc ∧
      t.upstream = t'.upstream ∧ t.agenda = t'.agenda ∧
      (∀ k, sameOrKept (s.buf.get k) (s'.buf.get k) (t.buf.get k) (t'.buf.get k)) ∧
      sameOrKept s.csOk s'.csOk t.csOk t'.csOk ∧ sameOrKept s.tlOk s'.tlOk t.tlOk t'.tlOk ∧
      sameOrKept s.rstat s'.rstat t.rstat t'.rstat ∧ sameOrKept s.cnt s'.cnt t.cnt t'.cnt ∧
      sameOrKept s.errinfo s'.errinfo t.errinfo t'.errinfo

/-- R67, R70: a step takes at most the oldest upstream event, only while busy, and never on a cancellation
or a reset; it never puts one back. -/
def Obligations.StreamIsReadInOrderAndOnlyWhileBusy : Prop :=
  ∀ s t : State, step s = .next t →
    t.upstream = s.upstream ∨
    ∃ (o : Offer) (k : Tick), s.upstream = o :: t.upstream ∧ s.clocks k ∧ s.st ≠ .idle ∧
      k.streamReady = true ∧ k.cancel = false ∧ k.rst = false

/-- R71, R78: in `IDLE`, with no request and no reset, a clock step changes no register and no output and
takes nothing from the stream. -/
def Obligations.IdleResultStaysConstant : Prop :=
  ∀ (s : State) (k : Tick), s.st = .idle → s.clocks k → k.rst = false → k.reqValid = false →
    ∃ t : State, step s = .next t ∧ t = { s with agenda := s.agenda.tail } ∧ t.outputs = s.outputs

/-- R106: every state steps to a next state, unless the step is the call of `Decode` on more than ten bytes
that R181 leaves undefined and the model refuses (notes/assumptions/7.md). No step faults. -/
def Obligations.EveryStateSteps : Prop :=
  ∀ s : State,
    (∃ t, step s = .next t) ∨
      (step s = .refused .listTooLong ∧
        ∃ l, s.agenda.head? = some (.decode l) ∧ 10 < l.length)

/-- A byte that no row of R95 takes changes no register: at the event level one applied in `IDLE`, where R93
does not accept it, and one in `BODY` with `idx` 0 or 1, which R26 rules out. In the second case the step
takes the byte from the stream as R41 says; that it is a wait is the model's choice:
notes/assumptions/8.md. -/
def Obligations.ByteOutsideEveryRowIsAWait : Prop :=
  (∀ (s : State) (b : Byte), s.st = .idle → stepEvent s (.byte b) = .next s) ∧
  ∀ (s : State) (b : Byte), s.st = .body → s.idx.val < 2 →
    stepEvent s (.byte b) = .next s ∧
    ∀ k : Tick, s.clocks k → offersByte (s.pins k) b →
      step s = .next { s with agenda := s.agenda.tail, upstream := s.upstream.tail }

/-! ### Runs -/

/-- R76, R93: a loaded script of accepted events runs as its events applied one at a time in their order,
whatever else is on the agenda and upstream; at the event level an event that the state does not accept is
a wait. How a script is loaded is the model's choice: notes/assumptions/11.md. -/
def Obligations.LoadedScriptRunsAsItsEvents : Prop :=
  (∀ (evs : List Event) (s : State), acceptedRun evs s = true →
    runSteps evs.length (s.load evs) = runEvents evs s) ∧
  ∀ (ev : Event) (s : State), eventAccepted s.st ev = false → stepEvent s ev = .next s

/-- R142: a run from `REQ(n)` to the step that returns to `IDLE` performs the source's procedure on what
arrives, the steps on which nothing arrives and a cancellation included: the same bytes, fault or
cancellation, the same count and error information, the same events left unread, one step for each arrival
and one for the request, the busy state in between; and where the procedure blocks, the request stays busy.
The run has no `RST`. That the clock steps are a list, quiet after its end, is the model's choice:
notes/assumptions/2.md and 3.md. -/
def Obligations.RunPerformsReadFrame : Prop :=
  ∀ (s : State) (r : Tick) (ts : List Tick), s.requests r ts →
    match readFrame r.reqBuflen (arrivals ts s.upstream) with
    | .returned f rest =>
        (∃ t, runSteps ((arrivals ts s.upstream).length - rest.length + 1) s = .next t ∧
          t.st = .idle ∧ t.rstat = .ok ∧ t.cnt = 10 ∧ t.errinfo = 0 ∧ t.buf = f ∧
          t.upstream = unread rest) ∧
        busyUntil ((arrivals ts s.upstream).length - rest.length + 1) s
    | .failed status count info rest =>
        (∃ t, runSteps ((arrivals ts s.upstream).length - rest.length + 1) s = .next t ∧
          t.st = .idle ∧ t.rstat = status ∧ t.cnt.val = count ∧ t.errinfo = info ∧
          t.upstream = unread rest) ∧
        busyUntil ((arrivals ts s.upstream).length - rest.length + 1) s
    | .blocked => ∀ j, busyUntil j s

/-- R144: after noise on which the scan is clean, the request returns exactly the well-formed frame that
follows, having consumed the noise and ten bytes and nothing more, with any waits in between. The clock
steps are a list, quiet after its end: notes/assumptions/2.md and 3.md. -/
def Obligations.CleanNoiseThenFrameIsReturned : Prop :=
  ∀ (s : State) (r : Tick) (ts : List Tick) (noise : List Byte) (f : Frame) (rest : List Offer),
    s.requests r ts → uncanceled ts → 10 ≤ r.reqBuflen.toNat →
    s.upstream = offersOf (noise ++ f.bytes) ++ rest → scan noise = .clean → isValid f = true →
    ∃ k t, runSteps k s = .next t ∧ busyUntil k s ∧ noise.length + 11 ≤ k ∧
      k ≤ noise.length + 11 + ts.length ∧ t.st = .idle ∧ t.rstat = .ok ∧ t.cnt = 10 ∧ t.buf = f ∧
      t.csOk = true ∧ t.tlOk = true ∧ t.outputs.frameValid = true ∧ t.upstream = rest

/-- R145: after noise that ends behind a pending head, the frame's own head is discarded and its commandId
skipped: the request is still busy and hunting at offset 2 of the frame, with any waits in between. The clock
steps are a list, quiet after its end: notes/assumptions/2.md and 3.md. -/
def Obligations.PendingHeadLosesTheFrame : Prop :=
  ∀ (s : State) (r : Tick) (ts : List Tick) (noise : List Byte) (f : Frame) (rest : List Offer),
    s.requests r ts → uncanceled ts → 10 ≤ r.reqBuflen.toNat →
    s.upstream = offersOf (noise ++ f.bytes) ++ rest → scan noise = .pending → isValid f = true →
    ∃ k t, runSteps k s = .next t ∧ busyUntil k s ∧ noise.length + 3 ≤ k ∧
      k ≤ noise.length + 3 + ts.length ∧ t.st = .hunt ∧ t.idx = 0 ∧ t.rstat = .none ∧
      t.upstream = offersOf (f.bytes.drop 2) ++ rest

/-- R146: when the scan locks at position `k` of the noise, the request returns the ten bytes from `k - 1`
on, whatever they are, with the flags those bytes give, and leaves the rest upstream, with any waits in
between. The clock steps are a list, quiet after its end: notes/assumptions/2.md and 3.md. -/
def Obligations.FalseLockReturnsTheTenBytes : Prop :=
  ∀ (s : State) (r : Tick) (ts : List Tick) (noise more : List Byte) (k : Nat) (rest : List Offer),
    s.requests r ts → uncanceled ts → 10 ≤ r.reqBuflen.toNat →
    s.upstream = offersOf (noise ++ more) ++ rest → scan noise = .locked k →
    k + 9 ≤ (noise ++ more).length →
    ∃ n t, runSteps n s = .next t ∧ busyUntil n s ∧ k + 10 ≤ n ∧ n ≤ k + 10 + ts.length ∧
      t.st = .idle ∧ t.rstat = .ok ∧ t.cnt = 10 ∧
      t.buf.bytes = ((noise ++ more).drop (k - 1)).take 10 ∧ t.csOk = checksumValid t.buf ∧
      t.tlOk = decide (t.buf.tail = 0xAB) ∧
      t.upstream = offersOf ((noise ++ more).drop (k + 9)) ++ rest

/-- R147: once locked, a request ends after exactly as many accepted bytes as are missing, with the bytes
stored from `idx` on, and stays in `BODY` until then, with any waits in between. The clock steps are a list,
quiet after its end: notes/assumptions/2.md and 3.md. -/
def Obligations.LockedRequestEndsWithTheMissingBytes : Prop :=
  ∀ (s : State) (ts : List Tick) (bs : List Byte) (rest : List Offer),
    s.st = .body → 2 ≤ s.idx.val → s.agenda = ts.map .clock → (∀ t ∈ ts, t.rst = false) →
    uncanceled ts → s.upstream = offersOf bs ++ rest → bs.length = 10 - s.idx.val →
    ∃ k t, runSteps k s = .next t ∧ bs.length ≤ k ∧ k ≤ bs.length + ts.length ∧ t.st = .idle ∧
      t.rstat = .ok ∧ t.upstream = rest ∧ t.buf.bytes = s.buf.bytes.take s.idx.val ++ bs ∧
      ∀ j, j < k → ∃ u, runSteps j s = .next u ∧ u.st = .body
end

