-- ==== Sys2Proof/Laws/Frame.lean ====
section
/-! SUPPORT. Laws of the ten bytes: read after write, the list and word forms, extensionality. -/

namespace Sys2Proof

/-- Reading offset `k` after writing offset `j`. -/
@[simp] theorem Frame.get_set (f : Frame) (j k : Index) (b : Byte) :
    (f.set j b).get k = if k = j then b else f.get k := by
  fin_cases j <;> fin_cases k <;> rfl

/-- Frames that agree at every offset are equal. -/
theorem Frame.ext_get {f g : Frame} (h : ∀ k, f.get k = g.get k) : f = g := by
  cases f
  cases g
  simpa [Frame.get] using ⟨h 0, h 1, h 2, h 3, h 4, h 5, h 6, h 7, h 8, h 9⟩

@[simp] theorem Frame.get_zero (k : Index) : Frame.zero.get k = 0 := by
  fin_cases k <;> rfl

/-- The byte at offset `k` is the `k`-th of the list (R60). -/
theorem Frame.bytes_getElem (f : Frame) (k : Index) : f.bytes[k.val]? = some (f.get k) := by
  fin_cases k <;> rfl

@[simp] theorem Frame.length_bytes (f : Frame) : f.bytes.length = 10 := rfl

@[simp] theorem Frame.ofBytes_bytes (f : Frame) : Frame.ofBytes f.bytes = some f := rfl

/-- A list is a frame exactly when it is that frame's bytes. -/
theorem Frame.ofBytes_eq_some {l : List Byte} {f : Frame} :
    Frame.ofBytes l = some f ↔ l = f.bytes := by
  constructor
  · unfold Frame.ofBytes
    split
    · rintro ⟨⟩
      rfl
    · exact nofun
  · rintro rfl
    rfl

/-- Any other length than ten is no frame. -/
theorem Frame.ofBytes_eq_none {l : List Byte} : Frame.ofBytes l = none ↔ l.length ≠ 10 := by
  match l with
  | [] | [_] | [_, _] | [_, _, _] | [_, _, _, _] | [_, _, _, _, _] | [_, _, _, _, _, _]
  | [_, _, _, _, _, _, _] | [_, _, _, _, _, _, _, _] | [_, _, _, _, _, _, _, _, _]
  | [_, _, _, _, _, _, _, _, _, _] => simp [Frame.ofBytes]
  | _ :: _ :: _ :: _ :: _ :: _ :: _ :: _ :: _ :: _ :: _ :: _ => simp [Frame.ofBytes]

/-- Bit `8k+j` of the packing is bit `j` of the byte at offset `k` (R62). -/
theorem Frame.getLsbD_toWord (f : Frame) (k : Index) (j : Nat) (hj : j < 8) :
    f.toWord.getLsbD (8 * k.val + j) = (f.get k).getLsbD j := by
  fin_cases k <;> interval_cases j <;> simp [Frame.toWord, Frame.get, BitVec.getLsbD_of_ge]

theorem Frame.getLsbD_get_ofWord (w : FrameWord) (k : Index) (j : Nat) (hj : j < 8) :
    ((Frame.ofWord w).get k).getLsbD j = w.getLsbD (8 * k.val + j) := by
  fin_cases k <;> simp [Frame.ofWord, Frame.get, hj]

@[simp] theorem Frame.ofWord_toWord (f : Frame) : Frame.ofWord f.toWord = f :=
  Frame.ext_get fun k => BitVec.eq_of_getLsbD_eq fun j hj => by
    rw [Frame.getLsbD_get_ofWord _ _ _ hj, Frame.getLsbD_toWord _ _ _ hj]

@[simp] theorem Frame.toWord_ofWord (w : FrameWord) : (Frame.ofWord w).toWord = w :=
  BitVec.eq_of_getLsbD_eq fun i hi => by
    have h := Frame.getLsbD_toWord (Frame.ofWord w) ⟨i / 8, by omega⟩ (i % 8) (by omega)
    rw [Frame.getLsbD_get_ofWord _ _ _ (by omega)] at h
    simpa [Nat.div_add_mod] using h

end Sys2Proof
end

