-- ==== Sys2Proof/Laws/State.lean ====
section
/-! SUPPORT. One lemma per field of State per shared operation: what the operation leaves in the field. -/

namespace Sys2Proof.Machine

@[simp] theorem State.resetRegisters_st (s : State) : (s.resetRegisters).st = .idle := rfl
@[simp] theorem State.resetRegisters_idx (s : State) : (s.resetRegisters).idx = 0 := rfl
@[simp] theorem State.resetRegisters_buf (s : State) : (s.resetRegisters).buf = Frame.zero := rfl
@[simp] theorem State.resetRegisters_acc (s : State) : (s.resetRegisters).acc = 0 := rfl
@[simp] theorem State.resetRegisters_csOk (s : State) : (s.resetRegisters).csOk = false := rfl
@[simp] theorem State.resetRegisters_tlOk (s : State) : (s.resetRegisters).tlOk = false := rfl
@[simp] theorem State.resetRegisters_rstat (s : State) : (s.resetRegisters).rstat = .none := rfl
@[simp] theorem State.resetRegisters_cnt (s : State) : (s.resetRegisters).cnt = 0 := rfl
@[simp] theorem State.resetRegisters_errinfo (s : State) : (s.resetRegisters).errinfo = 0 := rfl
@[simp] theorem State.resetRegisters_upstream (s : State) :
    (s.resetRegisters).upstream = s.upstream := rfl
@[simp] theorem State.resetRegisters_agenda (s : State) :
    (s.resetRegisters).agenda = s.agenda := rfl
@[simp] theorem State.resetRegisters_decoded (s : State) :
    (s.resetRegisters).decoded = s.decoded := rfl
@[simp] theorem State.resetRegisters_checked (s : State) :
    (s.resetRegisters).checked = s.checked := rfl

@[simp] theorem State.startRequest_st (s : State) : (s.startRequest).st = .hunt := rfl
@[simp] theorem State.startRequest_idx (s : State) : (s.startRequest).idx = 0 := rfl
@[simp] theorem State.startRequest_buf (s : State) : (s.startRequest).buf = s.buf := rfl
@[simp] theorem State.startRequest_acc (s : State) : (s.startRequest).acc = 0 := rfl
@[simp] theorem State.startRequest_csOk (s : State) : (s.startRequest).csOk = false := rfl
@[simp] theorem State.startRequest_tlOk (s : State) : (s.startRequest).tlOk = false := rfl
@[simp] theorem State.startRequest_rstat (s : State) : (s.startRequest).rstat = .none := rfl
@[simp] theorem State.startRequest_cnt (s : State) : (s.startRequest).cnt = 0 := rfl
@[simp] theorem State.startRequest_errinfo (s : State) : (s.startRequest).errinfo = 0 := rfl
@[simp] theorem State.startRequest_upstream (s : State) :
    (s.startRequest).upstream = s.upstream := rfl
@[simp] theorem State.startRequest_agenda (s : State) : (s.startRequest).agenda = s.agenda := rfl
@[simp] theorem State.startRequest_decoded (s : State) : (s.startRequest).decoded = s.decoded := rfl
@[simp] theorem State.startRequest_checked (s : State) : (s.startRequest).checked = s.checked := rfl

@[simp] theorem State.rejectRequest_st (s : State) : (s.rejectRequest).st = s.st := rfl
@[simp] theorem State.rejectRequest_idx (s : State) : (s.rejectRequest).idx = 0 := rfl
@[simp] theorem State.rejectRequest_buf (s : State) : (s.rejectRequest).buf = s.buf := rfl
@[simp] theorem State.rejectRequest_acc (s : State) : (s.rejectRequest).acc = 0 := rfl
@[simp] theorem State.rejectRequest_csOk (s : State) : (s.rejectRequest).csOk = false := rfl
@[simp] theorem State.rejectRequest_tlOk (s : State) : (s.rejectRequest).tlOk = false := rfl
@[simp] theorem State.rejectRequest_rstat (s : State) :
    (s.rejectRequest).rstat = .bufTooShort := rfl
@[simp] theorem State.rejectRequest_cnt (s : State) : (s.rejectRequest).cnt = 0 := rfl
@[simp] theorem State.rejectRequest_errinfo (s : State) : (s.rejectRequest).errinfo = 0 := rfl
@[simp] theorem State.rejectRequest_upstream (s : State) :
    (s.rejectRequest).upstream = s.upstream := rfl
@[simp] theorem State.rejectRequest_agenda (s : State) : (s.rejectRequest).agenda = s.agenda := rfl
@[simp] theorem State.rejectRequest_decoded (s : State) :
    (s.rejectRequest).decoded = s.decoded := rfl
@[simp] theorem State.rejectRequest_checked (s : State) :
    (s.rejectRequest).checked = s.checked := rfl

@[simp] theorem State.raise_st (s : State) (c : RStat) (e : Byte) : (s.raise c e).st = .idle := rfl
@[simp] theorem State.raise_idx (s : State) (c : RStat) (e : Byte) : (s.raise c e).idx = 0 := rfl
@[simp] theorem State.raise_buf (s : State) (c : RStat) (e : Byte) :
    (s.raise c e).buf = s.buf := rfl
@[simp] theorem State.raise_acc (s : State) (c : RStat) (e : Byte) :
    (s.raise c e).acc = s.acc := rfl
@[simp] theorem State.raise_csOk (s : State) (c : RStat) (e : Byte) :
    (s.raise c e).csOk = false := rfl
@[simp] theorem State.raise_tlOk (s : State) (c : RStat) (e : Byte) :
    (s.raise c e).tlOk = false := rfl
@[simp] theorem State.raise_rstat (s : State) (c : RStat) (e : Byte) :
    (s.raise c e).rstat = c := rfl
@[simp] theorem State.raise_cnt (s : State) (c : RStat) (e : Byte) :
    (s.raise c e).cnt = s.idx.castSucc := rfl
@[simp] theorem State.raise_errinfo (s : State) (c : RStat) (e : Byte) :
    (s.raise c e).errinfo = e := rfl
@[simp] theorem State.raise_upstream (s : State) (c : RStat) (e : Byte) :
    (s.raise c e).upstream = s.upstream := rfl
@[simp] theorem State.raise_agenda (s : State) (c : RStat) (e : Byte) :
    (s.raise c e).agenda = s.agenda := rfl
@[simp] theorem State.raise_decoded (s : State) (c : RStat) (e : Byte) :
    (s.raise c e).decoded = s.decoded := rfl
@[simp] theorem State.raise_checked (s : State) (c : RStat) (e : Byte) :
    (s.raise c e).checked = s.checked := rfl

@[simp] theorem State.storeHead_st (s : State) (b : Byte) : (s.storeHead b).st = .cmd := rfl
@[simp] theorem State.storeHead_idx (s : State) (b : Byte) : (s.storeHead b).idx = 1 := rfl
@[simp] theorem State.storeHead_buf (s : State) (b : Byte) :
    (s.storeHead b).buf = s.buf.set 0 b := rfl
@[simp] theorem State.storeHead_acc (s : State) (b : Byte) : (s.storeHead b).acc = s.acc := rfl
@[simp] theorem State.storeHead_csOk (s : State) (b : Byte) : (s.storeHead b).csOk = s.csOk := rfl
@[simp] theorem State.storeHead_tlOk (s : State) (b : Byte) : (s.storeHead b).tlOk = s.tlOk := rfl
@[simp] theorem State.storeHead_rstat (s : State) (b : Byte) :
    (s.storeHead b).rstat = s.rstat := rfl
@[simp] theorem State.storeHead_cnt (s : State) (b : Byte) : (s.storeHead b).cnt = s.cnt := rfl
@[simp] theorem State.storeHead_errinfo (s : State) (b : Byte) :
    (s.storeHead b).errinfo = s.errinfo := rfl
@[simp] theorem State.storeHead_upstream (s : State) (b : Byte) :
    (s.storeHead b).upstream = s.upstream := rfl
@[simp] theorem State.storeHead_agenda (s : State) (b : Byte) :
    (s.storeHead b).agenda = s.agenda := rfl
@[simp] theorem State.storeHead_decoded (s : State) (b : Byte) :
    (s.storeHead b).decoded = s.decoded := rfl
@[simp] theorem State.storeHead_checked (s : State) (b : Byte) :
    (s.storeHead b).checked = s.checked := rfl

@[simp] theorem State.lock_st (s : State) (b : Byte) : (s.lock b).st = .body := rfl
@[simp] theorem State.lock_idx (s : State) (b : Byte) : (s.lock b).idx = 2 := rfl
@[simp] theorem State.lock_buf (s : State) (b : Byte) : (s.lock b).buf = s.buf.set 1 b := rfl
@[simp] theorem State.lock_acc (s : State) (b : Byte) : (s.lock b).acc = 0 := rfl
@[simp] theorem State.lock_csOk (s : State) (b : Byte) : (s.lock b).csOk = s.csOk := rfl
@[simp] theorem State.lock_tlOk (s : State) (b : Byte) : (s.lock b).tlOk = s.tlOk := rfl
@[simp] theorem State.lock_rstat (s : State) (b : Byte) : (s.lock b).rstat = s.rstat := rfl
@[simp] theorem State.lock_cnt (s : State) (b : Byte) : (s.lock b).cnt = s.cnt := rfl
@[simp] theorem State.lock_errinfo (s : State) (b : Byte) : (s.lock b).errinfo = s.errinfo := rfl
@[simp] theorem State.lock_upstream (s : State) (b : Byte) : (s.lock b).upstream = s.upstream := rfl
@[simp] theorem State.lock_agenda (s : State) (b : Byte) : (s.lock b).agenda = s.agenda := rfl
@[simp] theorem State.lock_decoded (s : State) (b : Byte) : (s.lock b).decoded = s.decoded := rfl
@[simp] theorem State.lock_checked (s : State) (b : Byte) : (s.lock b).checked = s.checked := rfl

@[simp] theorem State.resynchronize_st (s : State) : (s.resynchronize).st = .hunt := rfl
@[simp] theorem State.resynchronize_idx (s : State) : (s.resynchronize).idx = 0 := rfl
@[simp] theorem State.resynchronize_buf (s : State) : (s.resynchronize).buf = s.buf := rfl
@[simp] theorem State.resynchronize_acc (s : State) : (s.resynchronize).acc = s.acc := rfl
@[simp] theorem State.resynchronize_csOk (s : State) : (s.resynchronize).csOk = s.csOk := rfl
@[simp] theorem State.resynchronize_tlOk (s : State) : (s.resynchronize).tlOk = s.tlOk := rfl
@[simp] theorem State.resynchronize_rstat (s : State) : (s.resynchronize).rstat = s.rstat := rfl
@[simp] theorem State.resynchronize_cnt (s : State) : (s.resynchronize).cnt = s.cnt := rfl
@[simp] theorem State.resynchronize_errinfo (s : State) :
    (s.resynchronize).errinfo = s.errinfo := rfl
@[simp] theorem State.resynchronize_upstream (s : State) :
    (s.resynchronize).upstream = s.upstream := rfl
@[simp] theorem State.resynchronize_agenda (s : State) : (s.resynchronize).agenda = s.agenda := rfl
@[simp] theorem State.resynchronize_decoded (s : State) :
    (s.resynchronize).decoded = s.decoded := rfl
@[simp] theorem State.resynchronize_checked (s : State) :
    (s.resynchronize).checked = s.checked := rfl

@[simp] theorem State.storePayload_st (s : State) (b : Byte) : (s.storePayload b).st = s.st := rfl
@[simp] theorem State.storePayload_idx (s : State) (b : Byte) :
    (s.storePayload b).idx = s.idx + 1 := rfl
@[simp] theorem State.storePayload_buf (s : State) (b : Byte) :
    (s.storePayload b).buf = s.buf.set s.idx b := rfl
@[simp] theorem State.storePayload_acc (s : State) (b : Byte) :
    (s.storePayload b).acc = s.acc + b := rfl
@[simp] theorem State.storePayload_csOk (s : State) (b : Byte) :
    (s.storePayload b).csOk = s.csOk := rfl
@[simp] theorem State.storePayload_tlOk (s : State) (b : Byte) :
    (s.storePayload b).tlOk = s.tlOk := rfl
@[simp] theorem State.storePayload_rstat (s : State) (b : Byte) :
    (s.storePayload b).rstat = s.rstat := rfl
@[simp] theorem State.storePayload_cnt (s : State) (b : Byte) :
    (s.storePayload b).cnt = s.cnt := rfl
@[simp] theorem State.storePayload_errinfo (s : State) (b : Byte) :
    (s.storePayload b).errinfo = s.errinfo := rfl
@[simp] theorem State.storePayload_upstream (s : State) (b : Byte) :
    (s.storePayload b).upstream = s.upstream := rfl
@[simp] theorem State.storePayload_agenda (s : State) (b : Byte) :
    (s.storePayload b).agenda = s.agenda := rfl
@[simp] theorem State.storePayload_decoded (s : State) (b : Byte) :
    (s.storePayload b).decoded = s.decoded := rfl
@[simp] theorem State.storePayload_checked (s : State) (b : Byte) :
    (s.storePayload b).checked = s.checked := rfl

@[simp] theorem State.storeCsum_st (s : State) (b : Byte) : (s.storeCsum b).st = s.st := rfl
@[simp] theorem State.storeCsum_idx (s : State) (b : Byte) : (s.storeCsum b).idx = 9 := rfl
@[simp] theorem State.storeCsum_buf (s : State) (b : Byte) :
    (s.storeCsum b).buf = s.buf.set 8 b := rfl
@[simp] theorem State.storeCsum_acc (s : State) (b : Byte) : (s.storeCsum b).acc = s.acc := rfl
@[simp] theorem State.storeCsum_csOk (s : State) (b : Byte) :
    (s.storeCsum b).csOk = (s.acc == b) := rfl
@[simp] theorem State.storeCsum_tlOk (s : State) (b : Byte) : (s.storeCsum b).tlOk = s.tlOk := rfl
@[simp] theorem State.storeCsum_rstat (s : State) (b : Byte) :
    (s.storeCsum b).rstat = s.rstat := rfl
@[simp] theorem State.storeCsum_cnt (s : State) (b : Byte) : (s.storeCsum b).cnt = s.cnt := rfl
@[simp] theorem State.storeCsum_errinfo (s : State) (b : Byte) :
    (s.storeCsum b).errinfo = s.errinfo := rfl
@[simp] theorem State.storeCsum_upstream (s : State) (b : Byte) :
    (s.storeCsum b).upstream = s.upstream := rfl
@[simp] theorem State.storeCsum_agenda (s : State) (b : Byte) :
    (s.storeCsum b).agenda = s.agenda := rfl
@[simp] theorem State.storeCsum_decoded (s : State) (b : Byte) :
    (s.storeCsum b).decoded = s.decoded := rfl
@[simp] theorem State.storeCsum_checked (s : State) (b : Byte) :
    (s.storeCsum b).checked = s.checked := rfl

@[simp] theorem State.complete_st (s : State) (b : Byte) : (s.complete b).st = .idle := rfl
@[simp] theorem State.complete_idx (s : State) (b : Byte) : (s.complete b).idx = 0 := rfl
@[simp] theorem State.complete_buf (s : State) (b : Byte) :
    (s.complete b).buf = s.buf.set 9 b := rfl
@[simp] theorem State.complete_acc (s : State) (b : Byte) : (s.complete b).acc = s.acc := rfl
@[simp] theorem State.complete_csOk (s : State) (b : Byte) : (s.complete b).csOk = s.csOk := rfl
@[simp] theorem State.complete_tlOk (s : State) (b : Byte) :
    (s.complete b).tlOk = (b == Config.tail) := rfl
@[simp] theorem State.complete_rstat (s : State) (b : Byte) : (s.complete b).rstat = .ok := rfl
@[simp] theorem State.complete_cnt (s : State) (b : Byte) : (s.complete b).cnt = 10 := rfl
@[simp] theorem State.complete_errinfo (s : State) (b : Byte) :
    (s.complete b).errinfo = s.errinfo := rfl
@[simp] theorem State.complete_upstream (s : State) (b : Byte) :
    (s.complete b).upstream = s.upstream := rfl
@[simp] theorem State.complete_agenda (s : State) (b : Byte) :
    (s.complete b).agenda = s.agenda := rfl
@[simp] theorem State.complete_decoded (s : State) (b : Byte) :
    (s.complete b).decoded = s.decoded := rfl
@[simp] theorem State.complete_checked (s : State) (b : Byte) :
    (s.complete b).checked = s.checked := rfl

@[simp] theorem State.recordResponse_st (s : State) (c : DClass) (f : Frame) :
    (s.recordResponse c f).st = s.st := rfl
@[simp] theorem State.recordResponse_idx (s : State) (c : DClass) (f : Frame) :
    (s.recordResponse c f).idx = s.idx := rfl
@[simp] theorem State.recordResponse_buf (s : State) (c : DClass) (f : Frame) :
    (s.recordResponse c f).buf = s.buf := rfl
@[simp] theorem State.recordResponse_acc (s : State) (c : DClass) (f : Frame) :
    (s.recordResponse c f).acc = s.acc := rfl
@[simp] theorem State.recordResponse_csOk (s : State) (c : DClass) (f : Frame) :
    (s.recordResponse c f).csOk = s.csOk := rfl
@[simp] theorem State.recordResponse_tlOk (s : State) (c : DClass) (f : Frame) :
    (s.recordResponse c f).tlOk = s.tlOk := rfl
@[simp] theorem State.recordResponse_rstat (s : State) (c : DClass) (f : Frame) :
    (s.recordResponse c f).rstat = s.rstat := rfl
@[simp] theorem State.recordResponse_cnt (s : State) (c : DClass) (f : Frame) :
    (s.recordResponse c f).cnt = s.cnt := rfl
@[simp] theorem State.recordResponse_errinfo (s : State) (c : DClass) (f : Frame) :
    (s.recordResponse c f).errinfo = s.errinfo := rfl
@[simp] theorem State.recordResponse_upstream (s : State) (c : DClass) (f : Frame) :
    (s.recordResponse c f).upstream = s.upstream := rfl
@[simp] theorem State.recordResponse_agenda (s : State) (c : DClass) (f : Frame) :
    (s.recordResponse c f).agenda = s.agenda := rfl
@[simp] theorem State.recordResponse_decoded (s : State) (c : DClass) (f : Frame) :
    (s.recordResponse c f).decoded = some (Response.ofFrame c f) := rfl
@[simp] theorem State.recordResponse_checked (s : State) (c : DClass) (f : Frame) :
    (s.recordResponse c f).checked = s.checked := rfl

@[simp] theorem State.recordShort_st (s : State) : (s.recordShort).st = s.st := rfl
@[simp] theorem State.recordShort_idx (s : State) : (s.recordShort).idx = s.idx := rfl
@[simp] theorem State.recordShort_buf (s : State) : (s.recordShort).buf = s.buf := rfl
@[simp] theorem State.recordShort_acc (s : State) : (s.recordShort).acc = s.acc := rfl
@[simp] theorem State.recordShort_csOk (s : State) : (s.recordShort).csOk = s.csOk := rfl
@[simp] theorem State.recordShort_tlOk (s : State) : (s.recordShort).tlOk = s.tlOk := rfl
@[simp] theorem State.recordShort_rstat (s : State) : (s.recordShort).rstat = s.rstat := rfl
@[simp] theorem State.recordShort_cnt (s : State) : (s.recordShort).cnt = s.cnt := rfl
@[simp] theorem State.recordShort_errinfo (s : State) : (s.recordShort).errinfo = s.errinfo := rfl
@[simp] theorem State.recordShort_upstream (s : State) :
    (s.recordShort).upstream = s.upstream := rfl
@[simp] theorem State.recordShort_agenda (s : State) : (s.recordShort).agenda = s.agenda := rfl
@[simp] theorem State.recordShort_decoded (s : State) :
    (s.recordShort).decoded = some Response.short := rfl
@[simp] theorem State.recordShort_checked (s : State) : (s.recordShort).checked = s.checked := rfl

@[simp] theorem State.recordValidity_st (s : State) (f : Frame) :
    (s.recordValidity f).st = s.st := rfl
@[simp] theorem State.recordValidity_idx (s : State) (f : Frame) :
    (s.recordValidity f).idx = s.idx := rfl
@[simp] theorem State.recordValidity_buf (s : State) (f : Frame) :
    (s.recordValidity f).buf = s.buf := rfl
@[simp] theorem State.recordValidity_acc (s : State) (f : Frame) :
    (s.recordValidity f).acc = s.acc := rfl
@[simp] theorem State.recordValidity_csOk (s : State) (f : Frame) :
    (s.recordValidity f).csOk = s.csOk := rfl
@[simp] theorem State.recordValidity_tlOk (s : State) (f : Frame) :
    (s.recordValidity f).tlOk = s.tlOk := rfl
@[simp] theorem State.recordValidity_rstat (s : State) (f : Frame) :
    (s.recordValidity f).rstat = s.rstat := rfl
@[simp] theorem State.recordValidity_cnt (s : State) (f : Frame) :
    (s.recordValidity f).cnt = s.cnt := rfl
@[simp] theorem State.recordValidity_errinfo (s : State) (f : Frame) :
    (s.recordValidity f).errinfo = s.errinfo := rfl
@[simp] theorem State.recordValidity_upstream (s : State) (f : Frame) :
    (s.recordValidity f).upstream = s.upstream := rfl
@[simp] theorem State.recordValidity_agenda (s : State) (f : Frame) :
    (s.recordValidity f).agenda = s.agenda := rfl
@[simp] theorem State.recordValidity_decoded (s : State) (f : Frame) :
    (s.recordValidity f).decoded = s.decoded := rfl
@[simp] theorem State.recordValidity_checked (s : State) (f : Frame) :
    (s.recordValidity f).checked = some (Validity.ofFrame f) := rfl

end Sys2Proof.Machine
end

