-- ==== Sys2Proof/Laws/Ops.lean ====
section
/-! SUPPORT. Once for all operations: what `perform` can answer, the effect of each operation, and what
`exec` can answer. Proofs about an instruction cite these instead of unfolding its meaning. -/

namespace Sys2Proof.Machine

/-- The register effect of each operation where it is accepted: the pseudocode of its rule. -/
def effect (s : State) : Instr → State
  | .rst => s.resetRegisters
  | .req n => if tooShort n then s.rejectRequest else s.startRequest
  | .cancel => s.raise .canceled 0
  | .ioerr e => s.raise .ioError e
  | .zero => s.raise .portReadError 0
  | .wait => s
  | .huntHead b => s.storeHead b
  | .huntSkip _ => s
  | .cmdAcceptData b => s.lock b
  | .cmdAcceptStatus b => s.lock b
  | .cmdReject _ => s.resynchronize
  | .bodyPayload b => s.storePayload b
  | .bodyCsum b => s.storeCsum b
  | .bodyTail b => s.complete b
  | .decData f => s.recordResponse .data f
  | .decStatusReportingMode f => s.recordResponse .reportingMode f
  | .decStatusDeviceId f => s.recordResponse .notImplemented f
  | .decStatusWorkingMode f => s.recordResponse .notImplemented f
  | .decStatusFirmware f => s.recordResponse .notImplemented f
  | .decStatusWorkingPeriod f => s.recordResponse .notImplemented f
  | .decStatusOther f => s.recordResponse statusOtherClass f
  | .decBadType f => s.recordResponse .badType f
  | .validData f => s.recordValidity f
  | .validStatus f => s.recordValidity f

/-- Every arm performs its operation's effect. -/
theorem exec_eq_perform (i : Instr) (s : State) : exec i s = perform i s (effect s i) := by
  cases i <;> rfl

/-- A well-formed operation that the state accepts has its effect. -/
theorem perform_accepted {i : Instr} {s t : State} (hw : i.wf = true)
    (ha : accepts s.st s.idx i = true) : perform i s t = .next t := by
  simp [perform, hw, ha]

/-- A well-formed operation that the state does not accept changes nothing. -/
theorem perform_unaccepted {i : Instr} {s t : State} (hw : i.wf = true)
    (ha : accepts s.st s.idx i = false) : perform i s t = .next s := by
  simp [perform, hw, ha]

/-- All that `perform` can answer. -/
theorem perform_cases (i : Instr) (s t : State) :
    (i.wf = true ∧ accepts s.st s.idx i = true ∧ perform i s t = .next t) ∨
    (i.wf = true ∧ accepts s.st s.idx i = false ∧ perform i s t = .next s) ∨
    (i.wf = false ∧ perform i s t = .refused .illFormed) := by
  unfold perform
  cases i.wf <;> cases accepts s.st s.idx i <;> simp

/-- All that `exec` can answer with a next state. -/
theorem exec_next_cases {i : Instr} {s t : State} (h : exec i s = .next t) :
    i.wf = true ∧
      ((accepts s.st s.idx i = true ∧ t = effect s i) ∨ (accepts s.st s.idx i = false ∧ t = s)) := by
  rw [exec_eq_perform] at h
  obtain ⟨hw, ha, hp⟩ | ⟨hw, ha, hp⟩ | ⟨-, hp⟩ := perform_cases i s (effect s i)
  · rw [hp] at h
    cases h
    exact ⟨hw, .inl ⟨ha, rfl⟩⟩
  · rw [hp] at h
    cases h
    exact ⟨hw, .inr ⟨ha, rfl⟩⟩
  · rw [hp] at h
    cases h

/-- A well-formed operation that the state accepts runs. -/
theorem exec_accepted {i : Instr} {s : State} (hw : i.wf = true)
    (ha : accepts s.st s.idx i = true) : exec i s = .next (effect s i) := by
  rw [exec_eq_perform, perform_accepted hw ha]

/-- A well-formed operation that the state does not accept is a wait. -/
theorem exec_unaccepted {i : Instr} {s : State} (hw : i.wf = true)
    (ha : accepts s.st s.idx i = false) : exec i s = .next s := by
  rw [exec_eq_perform, perform_unaccepted hw ha]

/-- No operation touches the stream or the agenda: that is the step's doing. -/
@[simp] theorem effect_upstream (s : State) (i : Instr) : (effect s i).upstream = s.upstream := by
  cases i <;> simp [effect]
  split <;> rfl

@[simp] theorem effect_agenda (s : State) (i : Instr) : (effect s i).agenda = s.agenda := by
  cases i <;> simp [effect]
  split <;> rfl

end Sys2Proof.Machine
end

