-- ==== Sys2Proof/Laws/PerInstr.lean ====
section
/-! SUPPORT. Statements made once per instruction. `EncodeAccepted`: the port-level encoding of an operation
names a state that accepts it, and only FRAME80 operations are encoded otherwise. -/

namespace Sys2Proof.Laws.EncodeAccepted

/-- The encoder's state accepts the operation, and the encoding has the form of the row's format. -/
def Statement (i : Instr) : Prop :=
  match encode i with
  | .pins st idx _ => i.format ≠ .frame80 ∧ Machine.accepts st idx i = true
  | .dispatch _ => i.format = .frame80
  | .validity _ => i.format = .frame80

theorem rst : Statement .rst := by
  simp [Statement, encode, Instr.format, Machine.accepts]
theorem req (n : Byte) : Statement (.req n) := by
  simp [Statement, encode, Instr.format, Machine.accepts]
theorem cancel : Statement .cancel := by
  simp [Statement, encode, Instr.format, Machine.accepts]
theorem ioerr (e : Byte) : Statement (.ioerr e) := by
  simp [Statement, encode, Instr.format, Machine.accepts]
theorem zero : Statement .zero := by
  simp [Statement, encode, Instr.format, Machine.accepts]
theorem wait : Statement .wait := by
  simp [Statement, encode, Instr.format, Machine.accepts]
theorem huntHead (b : Byte) : Statement (.huntHead b) := by
  simp [Statement, encode, Instr.format, Machine.accepts]
theorem huntSkip (b : Byte) : Statement (.huntSkip b) := by
  simp [Statement, encode, Instr.format, Machine.accepts]
theorem cmdAcceptData (b : Byte) : Statement (.cmdAcceptData b) := by
  simp [Statement, encode, Instr.format, Machine.accepts]
theorem cmdAcceptStatus (b : Byte) : Statement (.cmdAcceptStatus b) := by
  simp [Statement, encode, Instr.format, Machine.accepts]
theorem cmdReject (b : Byte) : Statement (.cmdReject b) := by
  simp [Statement, encode, Instr.format, Machine.accepts]
theorem bodyPayload (b : Byte) : Statement (.bodyPayload b) := by
  simp [Statement, encode, Instr.format, Machine.accepts, Config.offPayLo, Config.offPayHi]
theorem bodyCsum (b : Byte) : Statement (.bodyCsum b) := by
  simp [Statement, encode, Instr.format, Machine.accepts, Config.offCsum]
theorem bodyTail (b : Byte) : Statement (.bodyTail b) := by
  simp [Statement, encode, Instr.format, Machine.accepts, Config.offTail]
theorem decData (f : Frame) : Statement (.decData f) := rfl
theorem decStatusReportingMode (f : Frame) : Statement (.decStatusReportingMode f) := rfl
theorem decStatusDeviceId (f : Frame) : Statement (.decStatusDeviceId f) := rfl
theorem decStatusWorkingMode (f : Frame) : Statement (.decStatusWorkingMode f) := rfl
theorem decStatusFirmware (f : Frame) : Statement (.decStatusFirmware f) := rfl
theorem decStatusWorkingPeriod (f : Frame) : Statement (.decStatusWorkingPeriod f) := rfl
theorem decStatusOther (f : Frame) : Statement (.decStatusOther f) := rfl
theorem decBadType (f : Frame) : Statement (.decBadType f) := rfl
theorem validData (f : Frame) : Statement (.validData f) := rfl
theorem validStatus (f : Frame) : Statement (.validStatus f) := rfl

end Sys2Proof.Laws.EncodeAccepted
end

