-- ==== Sys2Proof/Laws/Step.lean ====
section
/-! SUPPORT. What the environment does to the registers (nothing), what one step can answer, and what the
decoders can give. -/

namespace Sys2Proof.Machine

/-- `advance` writes `agenda` and `upstream` only: every state function that does not read the two is
unchanged by it. -/
theorem State.advance_eq (s : State) :
    s.advance = { s with agenda := s.advance.agenda, upstream := s.advance.upstream } := by
  unfold State.advance
  split <;> rfl

@[simp] theorem State.advance_st (s : State) : s.advance.st = s.st := by rw [State.advance_eq]
@[simp] theorem State.advance_idx (s : State) : s.advance.idx = s.idx := by rw [State.advance_eq]
@[simp] theorem State.advance_buf (s : State) : s.advance.buf = s.buf := by rw [State.advance_eq]
@[simp] theorem State.advance_acc (s : State) : s.advance.acc = s.acc := by rw [State.advance_eq]
@[simp] theorem State.advance_csOk (s : State) : s.advance.csOk = s.csOk := by rw [State.advance_eq]
@[simp] theorem State.advance_tlOk (s : State) : s.advance.tlOk = s.tlOk := by rw [State.advance_eq]
@[simp] theorem State.advance_rstat (s : State) : s.advance.rstat = s.rstat := by rw [State.advance_eq]
@[simp] theorem State.advance_cnt (s : State) : s.advance.cnt = s.cnt := by rw [State.advance_eq]
@[simp] theorem State.advance_errinfo (s : State) : s.advance.errinfo = s.errinfo := by
  rw [State.advance_eq]
@[simp] theorem State.advance_decoded (s : State) : s.advance.decoded = s.decoded := by
  rw [State.advance_eq]
@[simp] theorem State.advance_checked (s : State) : s.advance.checked = s.checked := by
  rw [State.advance_eq]

/-- The agenda loses its oldest cue. -/
@[simp] theorem State.advance_agenda (s : State) : s.advance.agenda = s.agenda.tail := by
  unfold State.advance
  split <;> simp [*]

/-- A clock step's operation is chosen by the pins; the cue is the tick or, on an empty agenda, the quiet
tick. -/
theorem State.fetch_cases (s : State) :
    (∃ t, s.fetch = .pins s.st s.idx (s.pins t) ∧ s.advance.upstream = s.streamAfter t ∧
      (s.agenda.head? = some (.clock t) ∨ (s.agenda = [] ∧ t = Tick.quiet))) ∨
    (∃ l, s.fetch = .dispatch l ∧ s.advance.upstream = s.upstream ∧
      s.agenda.head? = some (.decode l)) ∨
    (∃ w, s.fetch = .validity w ∧ s.advance.upstream = s.upstream ∧
      s.agenda.head? = some (.check w)) := by
  unfold State.fetch State.advance
  rcases s.agenda with _ | ⟨_ | _ | _, _⟩ <;> simp

/-- All that a step can answer with a next state. -/
theorem step_next_cases {s t : State} (h : step s = .next t) :
    (∃ i, decode s.fetch = .ok i ∧ exec i s.advance = .next t) ∨
    (decode s.fetch = .error .short ∧ t = s.advance.recordShort) ∨
    (∃ f, decode s.fetch = .error (.notValid f) ∧ t = s.advance.recordValidity f) := by
  unfold step at h
  split at h
  next i hd => exact .inl ⟨i, hd, h⟩
  next hd =>
    cases h
    exact .inr (.inl ⟨hd, rfl⟩)
  next => cases h
  next f hd =>
    cases h
    exact .inr (.inr ⟨f, hd, rfl⟩)

/-- The step of a decoded operation. -/
theorem step_of_decode {s : State} {i : Instr} (h : decode s.fetch = .ok i) :
    step s = exec i s.advance := by
  simp [step, h]

/-- A byte is never selected in `IDLE` (R94 lines 2 and 3). -/
theorem selectEvent_idle (p : Pins) (b : Byte) : selectEvent .idle p ≠ .byte b := by
  unfold selectEvent
  cases p.rst <;> cases p.reqValid <;> simp

/-- Every operation refined from a byte is well formed and accepted where it was refined (R95). -/
theorem refineByte_sound (st : FsmState) (idx : Index) (b : Byte) :
    (refineByte st idx b).wf = true ∧ accepts st idx (refineByte st idx b) = true := by
  unfold refineByte
  split <;> (repeat' split) <;> simp_all [Instr.wf, accepts]

/-- Every operation of an event is well formed. -/
theorem decodeEvent_wf (st : FsmState) (idx : Index) (ev : Event) :
    (decodeEvent st idx ev).wf = true := by
  cases ev
  case byte b => exact (refineByte_sound st idx b).1
  all_goals rfl

/-- The operation of a selected event is accepted in the state it was selected for (R93, R94). -/
theorem decodeEvent_selectEvent_accepted (st : FsmState) (idx : Index) (p : Pins) :
    accepts st idx (decodeEvent st idx (selectEvent st p)) = true := by
  unfold selectEvent
  repeat' split
  case _ => rfl
  all_goals first
    | exact (refineByte_sound st idx _).2
    | simp_all [decodeEvent, accepts]

/-- A clock step whose agenda and pins are known has the effect of its operation. -/
theorem step_of_pins {s : State} {p : Pins} (h : s.fetch = .pins s.st s.idx p) :
    step s = .next (effect s.advance (decodeEvent s.st s.idx (selectEvent s.st p))) := by
  rw [step_of_decode (i := decodeEvent s.st s.idx (selectEvent s.st p)) (by rw [h]; rfl)]
  exact exec_accepted (decodeEvent_wf _ _ _) (by simp [decodeEvent_selectEvent_accepted])

end Sys2Proof.Machine
end

