-- ==== Sys2Proof/Laws/Run.lean ====
section
/-! SUPPORT. Clock steps and runs: what a clock step fetches, the port values it sees, when a byte is what
it decodes, and how a run unfolds step by step. -/

namespace Sys2Proof.Machine

@[simp] theorem State.pins_rst (s : State) (t : Tick) : (s.pins t).rst = t.rst := by
  unfold State.pins
  split <;> rfl

@[simp] theorem State.pins_reqValid (s : State) (t : Tick) : (s.pins t).reqValid = t.reqValid := by
  unfold State.pins
  split <;> rfl

@[simp] theorem State.pins_reqBuflen (s : State) (t : Tick) :
    (s.pins t).reqBuflen = t.reqBuflen := by
  unfold State.pins
  split <;> rfl

@[simp] theorem State.pins_cancel (s : State) (t : Tick) : (s.pins t).cancel = t.cancel := by
  unfold State.pins
  split <;> rfl

/-- With nothing upstream nothing is offered. -/
theorem State.pins_inValid_nil {s : State} {t : Tick} (h : s.upstream = []) :
    (s.pins t).inValid = false := by
  simp [State.pins, h]

/-- With an event upstream its values are on the ports, offered when the upstream is ready. -/
theorem State.pins_cons {s : State} {t : Tick} {o : Offer} {os : List Offer}
    (h : s.upstream = o :: os) :
    s.pins t =
      { rst := t.rst, reqValid := t.reqValid, reqBuflen := t.reqBuflen, cancel := t.cancel
        inValid := t.streamReady, inData := o.data, inZero := o.zero, inErr := o.err
        inErrinfo := o.errinfo } := by
  simp [State.pins, h]

/-- What a clock step fetches, and what is left when it has taken its cue and its stream event. -/
theorem State.clocks_fetch {s : State} {t : Tick} (h : s.clocks t) :
    s.fetch = .pins s.st s.idx (s.pins t) ∧
      s.advance = { s with agenda := s.agenda.tail, upstream := s.streamAfter t } := by
  unfold State.fetch State.advance
  rcases s with ⟨_, _, _, _, _, _, _, _, _, _, _ | ⟨_ | _ | _, _⟩, _, _⟩ <;> simp_all [State.clocks]

/-- A byte offered while busy is accepted, and is the operation R95 refines it to. -/
theorem decode_of_offersByte {st : FsmState} {idx : Index} {p : Pins} {b : Byte} (hs : st ≠ .idle)
    (h : offersByte p b) :
    decode (.pins st idx p) = .ok (refineByte st idx b) ∧ streamAccepted st p = true := by
  obtain ⟨h1, h2, h3, h4, h5, rfl⟩ := h
  simp [decode, selectEvent, decodeEvent, streamAccepted, *]

/-- In `IDLE` no stream event is accepted. -/
@[simp] theorem streamAccepted_idle (p : Pins) : streamAccepted .idle p = false := by
  simp [streamAccepted]

theorem tooShort_of_lt {n : Byte} (h : n.toNat < 10) : tooShort n = true :=
  decide_eq_true h

theorem tooShort_of_le {n : Byte} (h : 10 ≤ n.toNat) : tooShort n = false :=
  decide_eq_false (Nat.not_lt.mpr h)

@[simp] theorem runSteps_zero (s : State) : runSteps 0 s = .next s := rfl

/-- A run whose first step is a next state goes on from it. -/
theorem runSteps_succ_of_step {k : Nat} {s t : State} (h : step s = .next t) :
    runSteps (k + 1) s = runSteps k t := by
  have e : Sys2Proof.core.step s = .next t := h
  simp only [runSteps, Host.Core.run, e]
  rfl

/-- A run cut in two. -/
theorem runSteps_add {j k : Nat} {s t : State} (h : runSteps j s = .next t) :
    runSteps (j + k) s = runSteps k t := by
  induction j generalizing s with
  | zero =>
    cases h
    simp
  | succ j ih =>
    cases hs : step s with
    | next u =>
      rw [runSteps_succ_of_step hs] at h
      rw [Nat.succ_add, runSteps_succ_of_step hs, ih h]
    | fault r =>
      have e : Sys2Proof.core.step s = .fault r := hs
      simp [runSteps, Host.Core.run, e] at h
    | refused r =>
      have e : Sys2Proof.core.step s = .refused r := hs
      simp [runSteps, Host.Core.run, e] at h

end Sys2Proof.Machine
end

