-- ==== Sys2Proof/Laws/Procedure.lean ====
section
/-! SUPPORT. Arrivals: what they leave unread, and what a busy step does with the one that comes first. -/

namespace Sys2Proof.Machine

@[simp] theorem unread_nil : unread [] = [] := rfl

@[simp] theorem unread_nothing (as : List Arrival) : unread (.nothing :: as) = unread as := rfl

@[simp] theorem unread_cancel (as : List Arrival) : unread (.cancel :: as) = unread as := rfl

@[simp] theorem unread_event (o : Offer) (as : List Arrival) :
    unread (.event o :: as) = o :: unread as := rfl

theorem unread_map_event (os : List Offer) : unread (os.map .event) = os := by
  induction os with
  | nil => rfl
  | cons o os ih => simp [ih]

/-- Arrivals lose nothing of the stream and keep its order. -/
@[simp] theorem unread_arrivals (ts : List Tick) (os : List Offer) :
    unread (arrivals ts os) = os := by
  induction ts generalizing os with
  | nil => simp [arrivals, unread_map_event]
  | cons t ts ih =>
    simp only [arrivals]
    split
    · simp [ih]
    · split
      · split <;> simp [ih]
      · simp [ih]

/-- The first arrival and the rest, as the clock steps and the stream that are left when it has come. -/
theorem arrivals_cons {ts : List Tick} {os : List Offer} {a : Arrival} {as : List Arrival}
    (h : arrivals ts os = a :: as) :
    arrivals ts.tail (unread as) = as ∧
      (∀ t ∈ ts.head?, a = .cancel ↔ t.cancel = true) ∧ (ts = [] → a ≠ .cancel) := by
  cases ts with
  | nil =>
    cases os with
    | nil => cases h
    | cons o os =>
      cases h
      simp [arrivals, unread_map_event]
  | cons t ts =>
    simp only [arrivals] at h
    split at h
    · cases h
      simp [*]
    · split at h
      · split at h <;> cases h <;> simp [*]
      · cases h
        simp [*]

/-- What a busy step does: the operation of the arrival that comes first, on the registers as they are. -/
theorem step_arrival {s : State} {ts : List Tick} {a : Arrival} {as : List Arrival}
    (hb : s.st ≠ .idle) (hr : ∀ t ∈ ts, t.rst = false) (hg : s.agenda = ts.map .clock)
    (h : arrivals ts s.upstream = a :: as) :
    step s = .next (effect { s with agenda := ts.tail.map .clock, upstream := unread as }
      (decodeEvent s.st s.idx a.toEvent)) := by
  obtain ⟨t, hc, ht, hgt⟩ : ∃ t, s.clocks t ∧ t.rst = false ∧
      arrivals (t :: ts.tail) s.upstream = a :: as := by
    cases ts with
    | nil =>
      refine ⟨Tick.quiet, .inr ⟨hg, rfl⟩, rfl, ?_⟩
      cases hu : s.upstream with
      | nil => simp [hu, arrivals] at h
      | cons o os => simpa [hu, arrivals, Tick.quiet] using h
    | cons t ts => exact ⟨t, .inl (by simp [hg]), hr t (by simp), h⟩
  obtain ⟨hf, ha⟩ := State.clocks_fetch hc
  have hsel : selectEvent s.st (s.pins t) = a.toEvent ∧ s.streamAfter t = unread as := by
    simp only [arrivals] at hgt
    unfold selectEvent State.streamAfter streamAccepted
    cases hcl : t.cancel
    · cases hrd : t.streamReady
      · have hv : (s.pins t).inValid = false := by
          unfold State.pins
          split <;> simp [hrd]
        simp [hcl, hrd] at hgt
        obtain ⟨rfl, rfl⟩ := hgt
        simp [hb, ht, hcl, hv, Arrival.toEvent]
      · cases hu : s.upstream with
        | nil =>
          simp [hcl, hrd, hu] at hgt
          obtain ⟨rfl, rfl⟩ := hgt
          simp [hb, ht, hcl, State.pins_inValid_nil hu, Arrival.toEvent]
        | cons o os =>
          simp [hcl, hrd, hu] at hgt
          obtain ⟨rfl, rfl⟩ := hgt
          simp [State.pins_cons hu, hb, ht, hcl, hrd, Arrival.toEvent]
    · simp [hcl] at hgt
      obtain ⟨rfl, rfl⟩ := hgt
      simp [hb, ht, hcl, Arrival.toEvent]
  rw [step_of_pins hf, ha, hsel.1, hsel.2, hg, List.map_tail]

/-- With nothing left to arrive a busy step changes nothing. -/
theorem step_no_arrival {s : State} {ts : List Tick} (hb : s.st ≠ .idle)
    (hg : s.agenda = ts.map .clock) (h : arrivals ts s.upstream = []) : step s = .next s := by
  cases ts with
  | nil =>
    have hu : s.upstream = [] := by simpa [arrivals] using h
    obtain ⟨hf, ha⟩ := State.clocks_fetch (s := s) (.inr ⟨hg, rfl⟩)
    have hv := State.pins_inValid_nil (t := Tick.quiet) hu
    have hs : selectEvent s.st (s.pins Tick.quiet) = .wait := by
      unfold selectEvent
      simp [hb, hv]
      simp [Tick.quiet]
    rw [step_of_pins hf, ha, hs]
    simp [effect, decodeEvent, State.streamAfter, streamAccepted, hv, hg, hu]
    cases s
    simp_all
  | cons t ts =>
    simp only [arrivals] at h
    split at h
    · cases h
    · split at h
      · split at h <;> cases h
      · cases h

end Sys2Proof.Machine
end

