-- ==== Sys2Proof/Tests/Slice0.lean ====
section
/-! SUPPORT. The model's own tests. Expected values are the spec's: the encodings of 30_encoding.md and
opcode_table.json, the worked examples of the rules, and the vectors of 95_test_vectors.md, named where they
are used. The last part shows, for every obligation with hypotheses, states and operands that meet them. -/

namespace Sys2Proof.Tests

open Sys2Proof Sys2Proof.Machine

/-- The state a step or an operation leaves, if it leaves one. -/
def after : Host.Outcome State Fault Refusal → Option State
  | .next s => some s
  | .fault r => nomatch r
  | .refused _ => none

/-- The frame `F1` of 95_test_vectors.md. -/
def f1 : Frame := ⟨0xAA, 0xC0, 0xD4, 0x04, 0x3A, 0x0A, 0xA1, 0x60, 0x1D, 0xAB⟩

/-- The status frame of S4 and P7. -/
def f5 : Frame := ⟨0xAA, 0xC5, 0x05, 0x00, 0x00, 0x00, 0xA1, 0x60, 0x06, 0xAB⟩

/-- A busy state over the reset state. -/
def busyIn (st : FsmState) (idx : Index) : State := { State.reset with st := st, idx := idx }

/-- The state of P1 and V6 with six bytes of `F1` stored. -/
def midFrame : State :=
  { busyIn .body 6 with buf := ⟨0xAA, 0xC0, 0xD4, 0x04, 0x3A, 0x0A, 0, 0, 0, 0⟩, acc := 0x1C }

/-- The state of P1 with nine bytes of `F1` stored. -/
def beforeTail : State :=
  { busyIn .body 9 with buf := { f1 with tail := 0 }, acc := 0x1D, csOk := true }

/-- The state after `F1` has been returned (P1). -/
def returned : State :=
  { State.reset with buf := f1, acc := 0x1D, csOk := true, tlOk := true, rstat := .ok, cnt := 10 }

/-! ### WellFormed: an ill-formed term for each check, refused -/

theorem test_wf_huntHead : (Instr.huntHead 0x55).wf = false := by decide
theorem test_wf_huntSkip : (Instr.huntSkip 0xAA).wf = false := by decide
theorem test_wf_cmdAcceptData : (Instr.cmdAcceptData 0xC5).wf = false := by decide
theorem test_wf_cmdAcceptStatus : (Instr.cmdAcceptStatus 0xC0).wf = false := by decide
theorem test_wf_cmdReject_data : (Instr.cmdReject 0xC0).wf = false := by decide
theorem test_wf_cmdReject_status : (Instr.cmdReject 0xC5).wf = false := by decide
theorem test_wf_decData : (Instr.decData f5).wf = false := by decide
theorem test_wf_decStatusReportingMode : (Instr.decStatusReportingMode f5).wf = false := by decide
theorem test_wf_decStatusDeviceId : (Instr.decStatusDeviceId f1).wf = false := by decide
theorem test_wf_decStatusWorkingMode : (Instr.decStatusWorkingMode f5).wf = false := by decide
theorem test_wf_decStatusFirmware : (Instr.decStatusFirmware f5).wf = false := by decide
theorem test_wf_decStatusWorkingPeriod : (Instr.decStatusWorkingPeriod f5).wf = false := by decide
theorem test_wf_decStatusOther_listed : (Instr.decStatusOther f5).wf = false := by decide
theorem test_wf_decStatusOther_data : (Instr.decStatusOther f1).wf = false := by decide
theorem test_wf_decBadType_data : (Instr.decBadType f1).wf = false := by decide
theorem test_wf_decBadType_status : (Instr.decBadType f5).wf = false := by decide
theorem test_wf_validData_head : (Instr.validData { f1 with head := 0 }).wf = false := by decide
theorem test_wf_validData_cmd : (Instr.validData f5).wf = false := by decide
theorem test_wf_validData_tail : (Instr.validData { f1 with tail := 0 }).wf = false := by decide
theorem test_wf_validData_csum : (Instr.validData { f1 with csum := 0x1C }).wf = false := by decide
theorem test_wf_validStatus_head : (Instr.validStatus { f5 with head := 0 }).wf = false := by decide
theorem test_wf_validStatus_cmd : (Instr.validStatus f1).wf = false := by decide
theorem test_wf_validStatus_tail : (Instr.validStatus { f5 with tail := 0 }).wf = false := by decide
theorem test_wf_validStatus_csum : (Instr.validStatus { f5 with csum := 0 }).wf = false := by decide

/-! ### Decode: every constructor from an encoding written out from the spec -/

/-- R94 line 1. -/
theorem test_decode_rst :
    decode (.pins .body 6 ⟨true, true, 10, true, true, 0xAB, true, true, 0x2A⟩) = .ok .rst := by rfl

/-- R94 line 2. -/
theorem test_decode_req :
    decode (.pins .idle 0 ⟨false, true, 9, true, true, 0xAB, true, true, 0x2A⟩) = .ok (.req 9) := by rfl

/-- R94 line 3. -/
theorem test_decode_wait_idle :
    decode (.pins .idle 0 ⟨false, false, 9, true, true, 0xAB, true, true, 0x2A⟩) = .ok .wait := by rfl

/-- R94 line 4, with the tail byte offered (R215). -/
theorem test_decode_cancel :
    decode (.pins .body 9 ⟨false, true, 10, true, true, 0xAB, false, false, 0⟩) = .ok .cancel := by rfl

/-- R94 line 5, before line 6. -/
theorem test_decode_ioerr :
    decode (.pins .hunt 0 ⟨false, false, 0, false, true, 0x55, true, true, 0x2A⟩) =
      .ok (.ioerr 0x2A) := by rfl

/-- R94 line 6. -/
theorem test_decode_zero :
    decode (.pins .cmd 1 ⟨false, false, 0, false, true, 0xC0, true, false, 0x2A⟩) = .ok .zero := by rfl

/-- R94 line 8: the stream flags are ignored without `in_valid`. -/
theorem test_decode_wait_busy :
    decode (.pins .hunt 0 ⟨false, true, 10, false, false, 0xAA, true, true, 0x2A⟩) = .ok .wait := by rfl

/-- R95 row 1, `1010_1010`. -/
theorem test_decode_huntHead : decodeTableWord 8 0b10101010 = some (.huntHead 0xAA) := by rfl

/-- R95 row 2. -/
theorem test_decode_huntSkip : decodeTableWord 8 0b10101011 = some (.huntSkip 0xAB) := by rfl

/-- R95 row 3, `1100_0000`. -/
theorem test_decode_cmdAcceptData : decodeTableWord 8 0b11000000 = some (.cmdAcceptData 0xC0) := by rfl

/-- R95 row 4, `1100_0101`. -/
theorem test_decode_cmdAcceptStatus :
    decodeTableWord 8 0b11000101 = some (.cmdAcceptStatus 0xC5) := by rfl

/-- R95 row 5, on the two values that a merged mask would admit, and on the head. -/
theorem test_decode_cmdReject :
    decode (.pins .cmd 1 (Pins.ofByte 0xC1)) = .ok (.cmdReject 0xC1) ∧
    decode (.pins .cmd 1 (Pins.ofByte 0xC4)) = .ok (.cmdReject 0xC4) ∧
    decode (.pins .cmd 1 (Pins.ofByte 0xAA)) = .ok (.cmdReject 0xAA) := ⟨rfl, rfl, rfl⟩

/-- R95 row 6, at both ends of its range, with sentinel bytes (R107). -/
theorem test_decode_bodyPayload :
    decode (.pins .body 2 (Pins.ofByte 0xAA)) = .ok (.bodyPayload 0xAA) ∧
    decode (.pins .body 7 (Pins.ofByte 0xAB)) = .ok (.bodyPayload 0xAB) := ⟨rfl, rfl⟩

/-- R95 row 7. -/
theorem test_decode_bodyCsum : decode (.pins .body 8 (Pins.ofByte 0xAA)) = .ok (.bodyCsum 0xAA) := by rfl

/-- R95 row 8. -/
theorem test_decode_bodyTail : decode (.pins .body 9 (Pins.ofByte 0xAA)) = .ok (.bodyTail 0xAA) := by rfl

/-- R103 row 1, the word of R191's example with its tail spoilt. -/
theorem test_decode_decData : decodeTableWord 80 0x001D60A10A3A04D4C0AA =
    some (.decData { f1 with tail := 0 }) := by rfl

/-- R103 rows 2 to 6: the match values of the table. -/
theorem test_decode_decStatusReportingMode : decodeTableWord 80 0x0000000000000002C500 =
    some (.decStatusReportingMode ⟨0, 0xC5, 2, 0, 0, 0, 0, 0, 0, 0⟩) := by rfl
theorem test_decode_decStatusDeviceId : decodeTableWord 80 0x0000000000000005C500 =
    some (.decStatusDeviceId ⟨0, 0xC5, 5, 0, 0, 0, 0, 0, 0, 0⟩) := by rfl
theorem test_decode_decStatusWorkingMode : decodeTableWord 80 0x0000000000000006C500 =
    some (.decStatusWorkingMode ⟨0, 0xC5, 6, 0, 0, 0, 0, 0, 0, 0⟩) := by rfl
theorem test_decode_decStatusFirmware : decodeTableWord 80 0x0000000000000007C500 =
    some (.decStatusFirmware ⟨0, 0xC5, 7, 0, 0, 0, 0, 0, 0, 0⟩) := by rfl
theorem test_decode_decStatusWorkingPeriod : decodeTableWord 80 0x0000000000000008C500 =
    some (.decStatusWorkingPeriod ⟨0, 0xC5, 8, 0, 0, 0, 0, 0, 0, 0⟩) := by rfl

/-- R103 row 7, subtype 3 of R189's example. -/
theorem test_decode_decStatusOther : decodeTableWord 80 0x0000000000000003C500 =
    some (.decStatusOther ⟨0, 0xC5, 3, 0, 0, 0, 0, 0, 0, 0⟩) := by rfl

/-- R103 row 8, R190's example. -/
theorem test_decode_decBadType : decodeTableWord 80 0xAB00000000000000C1AA =
    some (.decBadType ⟨0xAA, 0xC1, 0, 0, 0, 0, 0, 0, 0, 0xAB⟩) := by rfl

/-- R104, the frame word of V18 and of P7. -/
theorem test_decode_validData : decodeTableWord 80 0xAB00000000000000C0AA =
    some (.validData ⟨0xAA, 0xC0, 0, 0, 0, 0, 0, 0, 0, 0xAB⟩) := by rfl
theorem test_decode_validStatus : decodeTableWord 80 0xAB0660A100000005C5AA =
    some (.validStatus f5) := by rfl

/-- What is no operation is rejected by its name. -/
theorem test_decode_short : decode (.dispatch [0xAA, 0xC0]) = .error .short := by rfl
theorem test_decode_long : decode (.dispatch (f1.bytes ++ [0])) = .error .tooLong := by rfl
theorem test_decode_notValid :
    decode (.validity { f1 with csum := 0x1C }.toWord) =
      .error (.notValid { f1 with csum := 0x1C }) := by rfl

/-- No row of R95 takes a byte where R26 rules the state out: notes/assumptions/8.md. -/
theorem test_decode_bodyBefore2 : decode (.pins .body 1 (Pins.ofByte 0)) = .ok .wait := by rfl

/-- A byte applied in `IDLE` is a wait, never a fault (R93, U18). -/
theorem test_stepEvent_byteInIdle : after (stepEvent returned (.byte 0xAA)) = some returned := by decide

/-- The mask and the matches of R104, as the table writes them. -/
theorem test_validity_words :
    validityMask = 0xFF00000000000000FFFF ∧
    validityMatch 0xC0 = 0xAB00000000000000C0AA ∧
    validityMatch 0xC5 = 0xAB00000000000000C5AA := by decide

/-- R191's example: the packing. -/
theorem test_frame_word : f1.toWord = 0xAB1D60A10A3A04D4C0AA ∧ Frame.ofWord f1.toWord = f1 := by decide

/-! ### One step of each operation -/

/-- V6: a reset in the middle of a frame; what is upstream stays (R252). -/
theorem test_rst : after (exec .rst { midFrame with upstream := [Offer.ofZero] }) =
    some { State.reset with upstream := [Offer.ofZero] } := by decide

/-- V1 and V2, over an old result: the buffer is kept. -/
theorem test_req_starts : after (exec (.req 10) returned) =
    some { State.reset with st := .hunt, buf := f1 } ∧
    after (exec (.req 255) returned) = after (exec (.req 10) returned) := by decide

/-- V3, over an old result. -/
theorem test_req_short : after (exec (.req 9) returned) =
    some { State.reset with rstat := .bufTooShort, buf := f1 } := by decide

/-- P6 step 9. -/
theorem test_cancel : after (exec .cancel midFrame) =
    some { midFrame with st := .idle, idx := 0, rstat := .canceled, cnt := 6 } := by decide

/-- P7 step 19 (R214's example). -/
theorem test_ioerr : after (exec (.ioerr 0x2A) (busyIn .hunt 0)) =
    some { State.reset with rstat := .ioError, errinfo := 0x2A } := by decide

/-- R213's example: `cnt` is the old `idx`. -/
theorem test_zero : after (exec .zero (busyIn .body 5)) =
    some { State.reset with rstat := .portReadError, cnt := 5 } := by decide

/-- V5. -/
theorem test_wait : after (exec .wait midFrame) = some midFrame := by decide

/-- V10. -/
theorem test_huntHead : after (exec (.huntHead 0xAA) (busyIn .hunt 0)) =
    some { busyIn .cmd 1 with buf := ⟨0xAA, 0, 0, 0, 0, 0, 0, 0, 0, 0⟩ } := by decide

/-- V9, on a commandId. -/
theorem test_huntSkip : after (exec (.huntSkip 0xC0) (busyIn .hunt 0)) = some (busyIn .hunt 0) := by
  decide

/-- V11. -/
theorem test_cmdAcceptData : after (exec (.cmdAcceptData 0xC0) { busyIn .cmd 1 with acc := 7 }) =
    some { busyIn .body 2 with buf := ⟨0, 0xC0, 0, 0, 0, 0, 0, 0, 0, 0⟩ } := by decide

/-- V11. -/
theorem test_cmdAcceptStatus : after (exec (.cmdAcceptStatus 0xC5) { busyIn .cmd 1 with acc := 7 }) =
    some { busyIn .body 2 with buf := ⟨0, 0xC5, 0, 0, 0, 0, 0, 0, 0, 0⟩ } := by decide

/-- V12: a second head is rejected like any other byte and not stored. -/
theorem test_cmdReject :
    after (exec (.cmdReject 0xAA) { busyIn .cmd 1 with buf := ⟨0xAA, 0, 0, 0, 0, 0, 0, 0, 0, 0⟩ }) =
      some { busyIn .hunt 0 with buf := ⟨0xAA, 0, 0, 0, 0, 0, 0, 0, 0, 0⟩ } := by decide

/-- V16: the sum wraps. -/
theorem test_bodyPayload_wraps :
    after (exec (.bodyPayload 0x3A) { busyIn .body 4 with acc := 0xD8 }) =
      some { busyIn .body 5 with acc := 0x12, buf := ⟨0, 0, 0, 0, 0x3A, 0, 0, 0, 0, 0⟩ } := by decide

/-- R139: at `idx` 7 the checksum byte is next. -/
theorem test_bodyPayload_last :
    after (exec (.bodyPayload 0x60) { busyIn .body 7 with acc := 0xBD }) =
      some { busyIn .body 8 with acc := 0x1D, buf := ⟨0, 0, 0, 0, 0, 0, 0, 0x60, 0, 0⟩ } := by decide

/-- R140's example. -/
theorem test_bodyCsum_match : after (exec (.bodyCsum 0x1D) { busyIn .body 8 with acc := 0x1D }) =
    some { busyIn .body 9 with acc := 0x1D, csOk := true, buf := ⟨0, 0, 0, 0, 0, 0, 0, 0, 0x1D, 0⟩ } := by
  decide

/-- R140's example, V19: a mismatch is recorded and not raised. -/
theorem test_bodyCsum_mismatch : after (exec (.bodyCsum 0x1C) { busyIn .body 8 with acc := 0x1D }) =
    some { busyIn .body 9 with acc := 0x1D, buf := ⟨0, 0, 0, 0, 0, 0, 0, 0, 0x1C, 0⟩ } := by decide

/-- P1's last step and the outputs after it. -/
theorem test_bodyTail : after (exec (.bodyTail 0xAB) beforeTail) = some returned ∧
    returned.outputs =
      { reqReady := true, inReady := false, busy := false, done := true, rstat := .ok, cnt := 10
        errinfo := 0, frame := 0xAB1D60A10A3A04D4C0AA, csCalc := 0x1D, csumValid := true
        tailValid := true, headOk := true, cmdOk := true, frameValid := true, dataValid := true
        dclass := .data, subtype := 0xD4, pm25Raw := 1236, pm10Raw := 2618, devId := 0x60A1 } := by
  decide

/-- V20: a wrong tail is returned as well. -/
theorem test_bodyTail_wrong : after (exec (.bodyTail 0xAA) beforeTail) =
    some { returned with buf := { f1 with tail := 0xAA }, tlOk := false } := by decide

/-- The class and the two readings a decoder operation answers with. -/
def answer (i : Instr) : Option (DClass × BitVec 16 × BitVec 16) :=
  ((after (exec i State.reset)).bind (·.decoded)).map fun r => (r.cls, r.pm25Raw, r.pm10Raw)

/-- S1, S2 and the status frames of V26. -/
theorem test_decData : answer (.decData f1) = some (.data, 1236, 2618) := by decide
theorem test_decStatusReportingMode :
    answer (.decStatusReportingMode ⟨0xAA, 0xC5, 2, 1, 0, 0, 0xA1, 0x60, 4, 0xAB⟩) =
      some (.reportingMode, 0x0102, 0) := by decide
theorem test_decStatusDeviceId : answer (.decStatusDeviceId f5) = some (.notImplemented, 5, 0) := by decide
theorem test_decStatusWorkingMode :
    answer (.decStatusWorkingMode ⟨0xAA, 0xC5, 6, 0, 1, 0, 0xA1, 0x60, 8, 0xAB⟩) =
      some (.notImplemented, 6, 1) := by decide
theorem test_decStatusFirmware :
    answer (.decStatusFirmware ⟨0xAA, 0xC5, 7, 0x0F, 7, 0x0A, 0xA1, 0x60, 0x28, 0xAB⟩) =
      some (.notImplemented, 0x0F07, 0x0A07) := by decide
theorem test_decStatusWorkingPeriod :
    answer (.decStatusWorkingPeriod ⟨0xAA, 0xC5, 8, 0, 2, 0, 0xA1, 0x60, 0x0B, 0xAB⟩) =
      some (.notImplemented, 8, 2) := by decide
theorem test_decBadType :
    answer (.decBadType ⟨0xAA, 0xC1, 0, 0, 0, 0, 0, 0, 0, 0xAB⟩) = some (.badType, 0, 0) := by decide

/-- The class of an unlisted subtype is open; the taps are not (V26). -/
theorem test_decStatusOther :
    ((after (exec (.decStatusOther ⟨0xAA, 0xC5, 3, 0, 0, 0, 0, 0, 3, 0xAB⟩) State.reset)).bind
      (·.decoded)).map (·.subtype) = some 3 := by rfl

/-- V22: the checks on a data frame and on a status frame. -/
theorem test_validData :
    ((after (exec (.validData f1) State.reset)).bind (·.checked)) =
      some ⟨0x1D, true, true, true, true, true, true⟩ := by decide
theorem test_validStatus :
    ((after (exec (.validStatus f5) State.reset)).bind (·.checked)) =
      some ⟨0x06, true, true, true, true, true, false⟩ := by decide

/-! ### Table words as the next step -/

/-- A placed byte runs as the very next step and is used up. -/
theorem test_fetch_byte : after (step (State.reset.withFetchWord 8 0xAA)) =
    some { busyIn .cmd 1 with buf := ⟨0xAA, 0, 0, 0, 0, 0, 0, 0, 0, 0⟩ } := by decide
theorem test_fetch_frame :
    ((after (step (State.reset.withFetchWord 24 0x05C500))).bind (·.decoded)).map (·.cls) =
      some .notImplemented := by decide
theorem test_fetch_validity :
    ((after (step (State.reset.withFetchWord 80 0xAB1D60A10A3A04D4C0AA))).bind (·.checked)).map
      (·.dataValid) = some true := by decide

/-! ### Witnesses: states and operands that meet the hypotheses of the obligations -/

/-- A state whose next step is the given clock step. -/
def ticking (s : State) (t : Tick) : State := { s with agenda := [.clock t] }

/-- The tick on which the host resets. -/
def resetTick : Tick := { Tick.quiet with rst := true }

/-- The tick on which the host cancels. -/
def cancelTick : Tick := { Tick.quiet with cancel := true }

/-- A state about to request a frame from a stream of bytes, the clock steps `ts` to follow. -/
def requesting (n : Byte) (ts : List Tick) (bs : List Byte) : State :=
  { State.reset with
    agenda := .clock (requestTick n) :: ts.map .clock
    upstream := offersOf bs }

/-- Clock steps with a wait among them. -/
def waiting : List Tick := [Tick.quiet, silentTick, Tick.quiet, silentTick]

theorem witness_RstResetsEveryRegister : ({ Pins.quiet with rst := true } : Pins).rst = true := by decide

theorem witness_RequestStartsHeadSearch :
    returned.st = .idle ∧ 10 ≤ (10 : Byte).toNat ∧ 10 ≤ (255 : Byte).toNat ∧ midFrame.st ≠ .idle ∧
    (∃ p : Pins, p.rst = false ∧ p.reqValid = true ∧ p.cancel = false ∧ p.inValid = false) := by
  refine ⟨by decide, by decide, by decide, by decide, { Pins.quiet with reqValid := true }, ?_⟩
  decide

theorem witness_ShortRequestFaultsBeforeReading :
    returned.st = .idle ∧ (0 : Byte).toNat < 10 ∧ (9 : Byte).toNat < 10 ∧
    ∃ p : Pins, p.rst = false ∧ p.reqValid = true :=
  ⟨by decide, by decide, by decide, { Pins.quiet with reqValid := true }, by decide⟩

theorem witness_WaitNeverChangesTheState :
    (Pins.quiet.rst = false ∧ Pins.quiet.reqValid = false ∧ Pins.quiet.cancel = false ∧
      Pins.quiet.inValid = false) ∧
    (ticking midFrame silentTick).agenda = List.replicate 1 (.clock silentTick) ++ [] := by decide

theorem witness_HuntSkipDiscardsTheByte :
    (busyIn .hunt 0).st = .hunt ∧ offersByte (Pins.ofByte 0xAB) 0xAB ∧ (0xAB : Byte) ≠ 0xAA := by decide

theorem witness_HuntHeadStoresTheHead :
    (busyIn .hunt 0).st = .hunt ∧ offersByte (Pins.ofByte 0xAA) 0xAA := by decide

theorem witness_CommandIdLocks :
    (busyIn .cmd 1).st = .cmd ∧ offersByte (Pins.ofByte 0xC0) 0xC0 ∧
    offersByte (Pins.ofByte 0xC5) 0xC5 ∧ midFrame.st = .body ∧
    ∃ v, exec (.bodyPayload 0xA1) midFrame = .next v :=
  ⟨by decide, by decide, by decide, by decide, _, rfl⟩

theorem witness_OtherByteAfterHeadResynchronizes :
    (busyIn .cmd 1).st = .cmd ∧ offersByte (Pins.ofByte 0xC4) 0xC4 ∧ (0xC4 : Byte) ≠ 0xC0 ∧
    (0xC4 : Byte) ≠ 0xC5 ∧ offersByte (Pins.ofByte 0xAA) 0xAA := by decide

theorem witness_PayloadByteIsStoredAndSummed :
    ((busyIn .body 2).st = .body ∧ 2 ≤ (busyIn .body 2).idx.val ∧ (busyIn .body 2).idx.val ≤ 7) ∧
    ((busyIn .body 7).st = .body ∧ 2 ≤ (busyIn .body 7).idx.val ∧ (busyIn .body 7).idx.val ≤ 7) ∧
    offersByte (Pins.ofByte 0xFF) 0xFF := by decide

theorem witness_ChecksumByteIsStoredAndCompared :
    (busyIn .body 8).st = .body ∧ (busyIn .body 8).idx = 8 ∧ offersByte (Pins.ofByte 0x1D) 0x1D := by
  decide

theorem witness_TailByteCompletesTheRequest :
    beforeTail.st = .body ∧ beforeTail.idx = 9 ∧ offersByte (Pins.ofByte 0xAB) 0xAB := by decide

theorem witness_FaultEntryRecordsAndEndsTheRequest :
    midFrame.st ≠ .idle ∧
    (∃ p : Pins, p.rst = false ∧ p.cancel = true ∧ p.inValid = true) ∧
    (∃ p : Pins, p.rst = false ∧ p.cancel = false ∧ p.inValid = true ∧ p.inErr = true) ∧
    (∃ p : Pins, p.rst = false ∧ p.cancel = false ∧ p.inValid = true ∧ p.inErr = false ∧
      p.inZero = true) ∧
    (∃ (i : Instr) (code : RStat) (info : Byte), i = .ioerr info ∧ code = .ioError) :=
  ⟨by decide, ⟨{ Pins.ofByte 0xAB with cancel := true }, by decide⟩,
    ⟨{ Pins.quiet with inValid := true, inErr := true }, by decide⟩,
    ⟨{ Pins.quiet with inValid := true, inZero := true }, by decide⟩, .ioerr 0, .ioError, 0, rfl, rfl⟩

theorem witness_CancelLeavesTheOfferedEventUpstream :
    State.clocks { ticking beforeTail cancelTick with upstream := [Offer.ofByte 0xAB] } cancelTick ∧
    beforeTail.st ≠ .idle ∧ cancelTick.rst = false ∧ cancelTick.cancel = true := by decide

theorem witness_CancelHeldAcrossARequest :
    ∃ (s : State) (t₁ t₂ : Tick), s.st = .idle ∧ s.agenda = [.clock t₁, .clock t₂] ∧ t₁.rst = false ∧
      t₁.reqValid = true ∧ 10 ≤ t₁.reqBuflen.toNat ∧ t₁.cancel = true ∧ t₂.rst = false ∧
      t₂.cancel = true ∧ s.upstream = [Offer.ofByte 0xAA] :=
  ⟨{ State.reset with
      agenda := [.clock { requestTick 10 with cancel := true }, .clock cancelTick]
      upstream := [Offer.ofByte 0xAA] },
    { requestTick 10 with cancel := true }, cancelTick, by decide⟩

theorem witness_ResetStepLeavesTheStream :
    State.clocks { ticking midFrame resetTick with upstream := [Offer.ofByte 0xA1] } resetTick ∧
    resetTick.rst = true := by decide

/-- One port assignment for each of the eight lines. -/
theorem witness_EventSelectionFollowsThePriority :
    ({ Pins.quiet with rst := true } : Pins).rst = true ∧
    ({ Pins.quiet with reqValid := true } : Pins).reqValid = true ∧ Pins.quiet.reqValid = false ∧
    ({ Pins.quiet with cancel := true } : Pins).cancel = true ∧
    (({ Pins.quiet with inValid := true, inErr := true } : Pins).inErr = true) ∧
    (({ Pins.quiet with inValid := true, inZero := true } : Pins).inZero = true) ∧
    ((Pins.ofByte 1).inValid = true ∧ (Pins.ofByte 1).inErr = false ∧ (Pins.ofByte 1).inZero = false) ∧
    Pins.quiet.inValid = false ∧ FsmState.hunt ≠ .idle := by decide

theorem witness_ByteOperationsAreTheirRows :
    FsmState.body ≠ .idle ∧ offersByte (Pins.ofByte 0xC0) 0xC0 := by decide

theorem witness_DecodedOperationsAreAccepted :
    decode (.pins .body 9 (Pins.ofByte 0)) = .ok (.bodyTail 0) ∧
    decode (.dispatch f1.bytes) = .ok (.decData f1) ∧
    decode (.validity f1.toWord) = .ok (.validData f1) := ⟨rfl, rfl, rfl⟩

theorem witness_DecodeOfEncodeIsTheOperation :
    (Instr.validStatus f5).wf = true ∧ (Instr.cmdReject 0xC4).wf = true := by decide

theorem witness_ValidityPatternsAreIsValid : isValid f1 = true ∧ isValid f5 = true := by decide

theorem witness_StepRunsTheDecodedOperation :
    decode (ticking beforeTail Tick.quiet).fetch = .ok .wait ∧
    State.clocks (ticking beforeTail Tick.quiet) Tick.quiet ∧ State.clocks beforeTail Tick.quiet ∧
    ({ State.reset with agenda := [.decode f1.bytes] } : State).agenda = .decode f1.bytes :: [] ∧
    ({ State.reset with agenda := [.check f1.toWord] } : State).agenda = .check f1.toWord :: [] :=
  ⟨rfl, by decide, by decide, rfl, rfl⟩

theorem witness_OperationsOutsideTheirRowDoNothing :
    ((Instr.bodyTail 0xAB).wf = true ∧ accepts .body 8 (.bodyTail 0xAB) = false) ∧
    State.reset.st = .idle ∧ (Instr.huntHead 0).wf = false ∧
    ({ State.reset with agenda := [.decode (f1.bytes ++ [0])] } : State).agenda.head? =
      some (.decode (f1.bytes ++ [0])) ∧
    10 < (f1.bytes ++ [0]).length := by decide

theorem witness_ChecksumIsThePayloadSumModulo256 :
    (1 : Index).val < 2 ∧ 7 < (8 : Index).val := by decide

theorem witness_ValidityRowsAnswerTheChecks :
    (f1.head = 0xAA ∧ f1.cmd = 0xC0 ∧ f1.tail = 0xAB ∧ f1.csum = checksum f1) ∧
    f5.head = 0xAA ∧ f5.cmd = 0xC5 ∧ f5.tail = 0xAB ∧ f5.csum = checksum f5 := by decide

theorem witness_CheckCallAnswersOnAnyTenBytes :
    ({ midFrame with agenda := [.check { f1 with tail := 0 }.toWord] } : State).agenda =
      .check { f1 with tail := 0 }.toWord :: [] ∧ isValid { f1 with tail := 0 } = false := by decide

theorem witness_CorrectFrameIsValid :
    f5.head = 0xAA ∧ (f5.cmd = 0xC0 ∨ f5.cmd = 0xC5) ∧ f5.tail = 0xAB ∧ f5.csum = checksum f5 := by
  decide

theorem witness_SingleBitFlipIsDetected :
    checksumValid f1 = true ∧ isValid f1 = true ∧ checksumValid { f1 with tail := 0 } = true ∧
    isValid { f1 with tail := 0 } = false ∧ (7 : Nat) < 8 ∧
    (2 ≤ (2 : Index).val ∧ (2 : Index).val ≤ 7) ∧ (2 ≤ (7 : Index).val ∧ (7 : Index).val ≤ 7) ∧
    (2 ≤ (8 : Index).val ∧ (8 : Index).val ≤ 8) ∧ (1 : Index).val ≤ 1 ∧ (9 : Index).val = 9 := by decide

/-- V24: offsets 2 and 3 swapped. -/
theorem witness_CompensatingChangesAreUndetected :
    f1.csum = ({ f1 with p2 := 0x04, p3 := 0xD4 } : Frame).csum ∧
    payloadSum f1 % 256 = payloadSum { f1 with p2 := 0x04, p3 := 0xD4 } % 256 ∧
    (2 ≤ (2 : Index).val ∧ (2 : Index).val ≤ 7) ∧ (2 ≤ (7 : Index).val ∧ (7 : Index).val ≤ 7) := by
  decide

theorem witness_AccumulatorReachesTheChecksum :
    (busyIn .body 2).st = .body ∧ (busyIn .body 2).idx = 2 ∧ (busyIn .body 2).acc = 0 ∧
    List.Perm [(0x60 : Byte), 0x04, 0x3A, 0x0A, 0xA1, 0xD4] [0xD4, 0x04, 0x3A, 0x0A, 0xA1, 0x60] := by
  decide

/-- One frame for each dispatch row. -/
theorem witness_DispatchRowsAnswerTheirClass :
    f1.cmd = 0xC0 ∧ (f5.cmd = 0xC5 ∧ ({ f5 with p2 := 2 } : Frame).p2 = 2 ∧ f5.p2 = 5 ∧
      ({ f5 with p2 := 6 } : Frame).p2 = 6 ∧ ({ f5 with p2 := 7 } : Frame).p2 = 7 ∧
      ({ f5 with p2 := 8 } : Frame).p2 = 8) ∧
    Frame.zero.cmd ≠ 0xC0 ∧ Frame.zero.cmd ≠ 0xC5 := by decide

theorem witness_UnlistedSubtypeGetsAFailureClass :
    ∃ f : Frame, f.cmd = 0xC5 ∧ f.p2 ≠ 2 ∧ f.p2 ≠ 5 ∧ f.p2 ≠ 6 ∧ f.p2 ≠ 7 ∧ f.p2 ≠ 8 :=
  ⟨{ f5 with p2 := 9 }, by decide⟩

theorem witness_DecodeCallAnswersByLength :
    ({ midFrame with agenda := [.decode (f1.bytes.take 9)] } : State).agenda =
      .decode (f1.bytes.take 9) :: [] ∧
    (f1.bytes.take 9).length < 10 ∧
    ({ midFrame with agenda := [.decode f1.bytes] } : State).agenda = .decode f1.bytes :: [] ∧
    returned.rstat = .ok ∧ midFrame.rstat ≠ .ok := by decide

theorem witness_ClassAndValidityAreIndependent :
    f1.cmd = ({ f1 with tail := 0 } : Frame).cmd ∧ f1.p2 = ({ f1 with tail := 0 } : Frame).p2 := by
  decide

theorem witness_TapsAreLittleEndianUnderTheGate : returned.rstat = .ok ∧ midFrame.rstat ≠ .ok := by
  decide

theorem witness_FramePortPacksTheBuffer :
    returned.rstat = .ok ∧ (7 : Nat) < 8 ∧ midFrame.rstat ≠ .ok := by decide

theorem witness_FrameOutputsUnderTheGate : returned.rstat = .ok := by decide

theorem witness_GateHidesTheBuffer : midFrame.rstat ≠ .ok := by decide

theorem witness_RegisteredAndPureChecksAgree : returned.Inv ∧ returned.rstat = .ok :=
  ⟨⟨by decide, by decide, by decide, by decide, by decide, by decide⟩, by decide⟩

/-- The invariant holds one step before a request completes, and that step is a next state. -/
theorem witness_StepKeepsTheInvariant :
    State.Inv { beforeTail with upstream := [Offer.ofByte 0xAB] } ∧
    step { beforeTail with upstream := [Offer.ofByte 0xAB] } = .next returned :=
  ⟨⟨by decide, by decide, by decide, by decide, by decide, by decide⟩, rfl⟩

/-- For each kind of row a state that accepts it, both branches of `REQ` among them. -/
theorem witness_TransitionsFollowTheTable :
    accepts .idle 0 (.req 10) = true ∧ accepts .idle 0 (.req 9) = true ∧
    accepts .hunt 0 (.huntHead 0xAA) = true ∧ accepts .hunt 0 (.huntSkip 0) = true ∧
    accepts .cmd 1 (.cmdAcceptData 0xC0) = true ∧ accepts .cmd 1 (.cmdAcceptStatus 0xC5) = true ∧
    accepts .cmd 1 (.cmdReject 0xAA) = true ∧ accepts .body 2 (.bodyPayload 0) = true ∧
    accepts .body 7 (.bodyPayload 0) = true ∧ accepts .body 8 (.bodyCsum 0) = true ∧
    accepts .body 9 (.bodyTail 0) = true ∧ accepts .body 9 .zero = true ∧
    (∃ t, exec (.bodyTail 0xAB) beforeTail = .next t) :=
  ⟨rfl, rfl, rfl, rfl, rfl, rfl, rfl, rfl, rfl, rfl, rfl, rfl, _, rfl⟩

theorem witness_OnlyStoringStepsWriteTheBuffer :
    ∃ t, step { beforeTail with upstream := [Offer.ofByte 0xAB] } = .next t := ⟨_, rfl⟩

/-- Two states that agree where the statement asks and differ in the buffer, the flags and the results. -/
theorem witness_SequencingIgnoresStoredBytes :
    ∃ s s' t : State, s.st = s'.st ∧ s.idx = s'.idx ∧ s.acc = s'.acc ∧ s.upstream = s'.upstream ∧
      s.agenda = s'.agenda ∧ step s = .next t ∧ s.buf ≠ s'.buf ∧ s.csOk ≠ s'.csOk ∧ s.cnt ≠ s'.cnt :=
  ⟨beforeTail, { beforeTail with buf := Frame.zero, csOk := false, cnt := 3 }, beforeTail,
    by decide, by decide, by decide, by decide, by decide, rfl, by decide, by decide, by decide⟩

theorem witness_StreamIsReadInOrderAndOnlyWhileBusy :
    ∃ t, step { busyIn .hunt 0 with upstream := [Offer.ofByte 0, Offer.ofZero] } = .next t ∧
      t.upstream = [Offer.ofZero] := ⟨_, rfl, rfl⟩

theorem witness_IdleResultStaysConstant :
    State.clocks { returned with upstream := [Offer.ofByte 0xAA] } Tick.quiet ∧ returned.st = .idle ∧
    Tick.quiet.rst = false ∧ Tick.quiet.reqValid = false := by decide

/-- The one kind of step that is no next state. -/
theorem witness_EveryStateSteps :
    step { midFrame with agenda := [.decode (f1.bytes ++ [0])] } = .refused .listTooLong ∧
    10 < (f1.bytes ++ [0]).length := ⟨rfl, by decide⟩

theorem witness_ByteOutsideEveryRowIsAWait :
    returned.st = .idle ∧ (busyIn .body 0).st = .body ∧ (busyIn .body 0).idx.val < 2 ∧
    (busyIn .body 1).idx.val < 2 ∧ State.clocks (busyIn .body 1) Tick.quiet ∧
    offersByte (State.pins { busyIn .body 1 with upstream := [Offer.ofByte 7] } Tick.quiet) 7 := by
  decide

/-- A script with a request, a wait, bytes and a fault; and an event that is not accepted. -/
theorem witness_LoadedScriptRunsAsItsEvents :
    acceptedRun [.req 10, .wait, .byte 0xAA, .byte 0xC0, .zero, .req 9] returned = true ∧
    eventAccepted returned.st (.byte 0xAA) = false := by decide

/-- The ways the procedure can end, with waits on the way, and a cancellation among them. -/
theorem witness_RunPerformsReadFrame :
    State.requests (requesting 10 waiting f1.bytes) (requestTick 10) waiting ∧
    readFrame 10 (arrivals waiting (offersOf f1.bytes)) = .returned f1 [] ∧
    readFrame 9 (arrivals [silentTick] [Offer.ofZero]) =
      .failed .bufTooShort 0 0 [.nothing, .event Offer.ofZero] ∧
    readFrame 10 (arrivals [silentTick] [Offer.ofByte 0xAA, Offer.ofIoerr 0x2A]) =
      .failed .ioError 1 0x2A [] ∧
    readFrame 10 (arrivals [Tick.quiet, silentTick, cancelTick] (offersOf [0xAA, 0xC0])) =
      .failed .canceled 1 0 [.event (Offer.ofByte 0xC0)] ∧
    readFrame 10 (arrivals waiting (offersOf [0xAA, 0xAA])) = .blocked := by decide

/-- V13: three false heads before the frame. -/
theorem witness_CleanNoiseThenFrameIsReturned :
    State.requests (requesting 10 waiting ([0xAA, 0x00, 0xAA, 0x01, 0xAA, 0xAB] ++ f1.bytes))
      (requestTick 10) waiting ∧
    uncanceled waiting ∧ 10 ≤ (requestTick 10).reqBuflen.toNat ∧
    (requesting 10 waiting ([0xAA, 0x00, 0xAA, 0x01, 0xAA, 0xAB] ++ f1.bytes)).upstream =
      offersOf ([0xAA, 0x00, 0xAA, 0x01, 0xAA, 0xAB] ++ f1.bytes) ++ [] ∧
    scan [0xAA, 0x00, 0xAA, 0x01, 0xAA, 0xAB] = .clean ∧ scan [] = .clean ∧ isValid f1 = true := by
  decide

/-- V14 and P4. -/
theorem witness_PendingHeadLosesTheFrame :
    State.requests (requesting 10 waiting ([0xAA] ++ f1.bytes)) (requestTick 10) waiting ∧
    uncanceled waiting ∧ 10 ≤ (requestTick 10).reqBuflen.toNat ∧
    (requesting 10 waiting ([0xAA] ++ f1.bytes)).upstream = offersOf ([0xAA] ++ f1.bytes) ++ [] ∧
    scan [0xAA] = .pending ∧ isValid f1 = true := by decide

/-- V15 and P5: the lock lies at position 1 of the noise and swallows five bytes of the frame. -/
theorem witness_FalseLockReturnsTheTenBytes :
    State.requests (requesting 10 waiting ([0xAA, 0xC0, 1, 2, 3] ++ f1.bytes)) (requestTick 10)
      waiting ∧
    uncanceled waiting ∧ 10 ≤ (requestTick 10).reqBuflen.toNat ∧
    (requesting 10 waiting ([0xAA, 0xC0, 1, 2, 3] ++ f1.bytes)).upstream =
      offersOf ([0xAA, 0xC0, 1, 2, 3] ++ f1.bytes) ++ [] ∧
    scan [0xAA, 0xC0, 1, 2, 3] = .locked 1 ∧
    1 + 9 ≤ ([0xAA, 0xC0, 1, 2, 3] ++ f1.bytes).length := by decide

/-- A state in `BODY` before the bytes of `F1` that are missing, the waits in between on the agenda. -/
def missing (idx : Index) : State :=
  { busyIn .body idx with
    agenda := waiting.map .clock
    upstream := offersOf (f1.bytes.drop idx.val) }

theorem witness_LockedRequestEndsWithTheMissingBytes :
    ((missing 2).st = .body ∧ 2 ≤ (missing 2).idx.val ∧ (missing 2).agenda = waiting.map .clock ∧
      (∀ t ∈ waiting, t.rst = false) ∧ uncanceled waiting ∧
      (missing 2).upstream = offersOf (f1.bytes.drop 2) ++ [] ∧
      (f1.bytes.drop 2).length = 10 - (missing 2).idx.val) ∧
    (missing 9).upstream = offersOf (f1.bytes.drop 9) ++ [] ∧
    (f1.bytes.drop 9).length = 10 - (missing 9).idx.val := by decide

end Sys2Proof.Tests
end

section
/-! SUPPORT. The invariant of reachable states (R50): the registers alone decide it, it holds at reset, and
every operation keeps it. -/

namespace Sys2Proof

@[simp] theorem Frame.head_set (f : Frame) (k : Index) (b : Byte) :
    (f.set k b).head = if 0 = k then b else f.head :=
  Frame.get_set f k 0 b

@[simp] theorem Frame.cmd_set (f : Frame) (k : Index) (b : Byte) :
    (f.set k b).cmd = if 1 = k then b else f.cmd :=
  Frame.get_set f k 1 b

@[simp] theorem Frame.csum_set (f : Frame) (k : Index) (b : Byte) :
    (f.set k b).csum = if 8 = k then b else f.csum :=
  Frame.get_set f k 8 b

@[simp] theorem Frame.tail_set (f : Frame) (k : Index) (b : Byte) :
    (f.set k b).tail = if 9 = k then b else f.tail :=
  Frame.get_set f k 9 b

namespace Machine

/-! ### The running sum (R43) -/

/-- Storing at the checksum or the tail offset leaves the payload sum as it is (R160). -/
@[simp] theorem checksum_set_csum (f : Frame) (b : Byte) : checksum (f.set 8 b) = checksum f := rfl

@[simp] theorem checksum_set_tail (f : Frame) (b : Byte) : checksum (f.set 9 b) = checksum f := rfl

theorem receivedSum_two (f : Frame) : receivedSum f 2 = 0 := by
  simp [receivedSum]

/-- With the whole payload received the running sum is the checksum (R43, R160). -/
theorem receivedSum_of_le {f : Frame} {idx : Index} (h : 8 ≤ idx) :
    receivedSum f idx = checksum f := by
  have gt (k : Index) (hk : k < 8) : k < idx := lt_of_lt_of_le hk h
  simp [receivedSum, checksum, gt]

theorem payload_index {idx : Index} (lo : 2 ≤ idx) (hi : idx ≤ 7) :
    idx = 2 ∨ idx = 3 ∨ idx = 4 ∨ idx = 5 ∨ idx = 6 ∨ idx = 7 := by
  revert idx
  decide

theorem payload_index_succ {idx : Index} (lo : 2 ≤ idx) (hi : idx ≤ 7) :
    2 ≤ idx + 1 ∧ idx + 1 ≠ 9 := by
  revert idx
  decide

/-- Storing payload byte `idx` adds it to the running sum (R139). -/
theorem receivedSum_set_succ (f : Frame) {idx : Index} (b : Byte) (lo : 2 ≤ idx) (hi : idx ≤ 7) :
    receivedSum (f.set idx b) (idx + 1) = receivedSum f idx + b := by
  obtain rfl | rfl | rfl | rfl | rfl | rfl := payload_index lo hi <;> simp [receivedSum, Frame.set]

/-! ### Operations that keep the invariant -/

/-- `REQ(n)` is R212 or R132 by the length it asks for. -/
theorem effect_req (s : State) (n : Byte) :
    effect s (.req n) = if tooShort n then s.rejectRequest else s.startRequest := rfl

/-- `RST` leaves the reset registers, from any state (R250). -/
theorem resetRegisters_sameRegisters (s : State) : sameRegisters s.resetRegisters State.reset := by
  simp [sameRegisters, State.reset]

/-- The decoder's rows and the validity rows write no register (R180). -/
theorem effect_sameRegisters {s : State} {i : Instr} (h : i.format = .frame80) :
    sameRegisters (effect s i) s := by
  cases i <;> simp [Instr.format, sameRegisters, effect] at h ⊢

/-- The invariant is about the registers alone. -/
theorem State.Inv.of_sameRegisters {s t : State} (hs : s.Inv) (h : sameRegisters t s) : t.Inv := by
  obtain ⟨hst, hidx, hbuf, hacc, hcs, htl, hrs, hcnt, herr⟩ := h
  cases s
  cases t
  subst_vars
  exact ⟨hs.1, hs.2, hs.3, hs.4, hs.5, hs.6⟩

theorem reset_inv : State.reset.Inv :=
  ⟨by decide, by decide, by decide, by decide, by decide, by decide⟩

theorem State.resetRegisters_inv (s : State) : s.resetRegisters.Inv :=
  reset_inv.of_sameRegisters (resetRegisters_sameRegisters s)

theorem State.startRequest_inv (s : State) : s.startRequest.Inv where
  sequencer := by simp [SequencerSound]
  accumulator := by simp [AccumulatorSound]
  result := by simp [ResultSound]
  candidate := by simp [CandidateSound]
  flags := by simp [FlagsSound]
  checksumFlag := by simp [ChecksumFlagSound]

theorem State.rejectRequest_inv {s : State} (hst : s.st = .idle) : s.rejectRequest.Inv where
  sequencer := by simp [SequencerSound, hst]
  accumulator := by simp [AccumulatorSound, hst]
  result := by simp [ResultSound, hst]
  candidate := by simp [CandidateSound]
  flags := by simp [FlagsSound, hst]
  checksumFlag := by simp [ChecksumFlagSound, hst]

/-- Fault entry with a status of R228; only `IoError` carries information. -/
theorem State.raise_inv (s : State) {code : RStat} {info : Byte}
    (hcode : code = .portReadError ∨ code = .ioError ∨ code = .canceled)
    (hinfo : info ≠ 0 → code = .ioError) : (s.raise code info).Inv where
  sequencer := by simp [SequencerSound]
  accumulator := by simp [AccumulatorSound]
  result := by
    have hne : s.idx.castSucc ≠ 10 := Fin.castSucc_ne_last s.idx
    have hle : s.idx.val ≤ 9 := Nat.le_of_lt_succ s.idx.isLt
    rcases hcode with rfl | rfl | rfl <;> simp_all [ResultSound]
  candidate := by rcases hcode with rfl | rfl | rfl <;> simp [CandidateSound]
  flags := by simp [FlagsSound]
  checksumFlag := by simp [ChecksumFlagSound]

/-- While busy the result registers are clear (R50 (4)). -/
theorem State.Inv.result_clear {s : State} (hs : s.Inv) (hst : s.st ≠ .idle) :
    s.rstat = .none ∧ s.cnt = 0 ∧ s.errinfo = 0 := by
  obtain ⟨-, hclear, -⟩ := hs.result
  exact hclear hst

/-- Clear result registers are sound, and announce no candidate. -/
theorem resultSound_of_clear {s : State} (h : s.rstat = .none ∧ s.cnt = 0 ∧ s.errinfo = 0) :
    ResultSound s := by
  simp [ResultSound, h]

theorem candidateSound_of_clear {s : State}
    (h : s.rstat = .none ∧ s.cnt = 0 ∧ s.errinfo = 0) : CandidateSound s := by
  simp [CandidateSound, h]

theorem State.Inv.storeHead {s : State} (hs : s.Inv) (hst : s.st = .hunt) :
    (s.storeHead Config.head).Inv where
  sequencer := by simp [SequencerSound]
  accumulator := by simp [AccumulatorSound]
  result := resultSound_of_clear (hs.result_clear (by simp [hst]))
  candidate := candidateSound_of_clear (hs.result_clear (by simp [hst]))
  flags := by simpa [FlagsSound, hst] using hs.flags
  checksumFlag := by simp [ChecksumFlagSound]

/-- The byte before the commandId is the head, which `idx = 1` says in `CMD` (R136, R137). -/
theorem State.Inv.lock {s : State} (hs : s.Inv) (hst : s.st = .cmd) {b : Byte}
    (hb : b = Config.cmdData ∨ b = Config.cmdStatus) : (s.lock b).Inv where
  sequencer := by
    obtain ⟨-, -, hidx, -, hhead, -⟩ := hs.sequencer
    have : s.buf.head = Config.head := hhead (by simp [hst]) (by simp [hidx hst])
    simp [SequencerSound, this, hb]
  accumulator := by simp [AccumulatorSound, receivedSum_two]
  result := resultSound_of_clear (hs.result_clear (by simp [hst]))
  candidate := candidateSound_of_clear (hs.result_clear (by simp [hst]))
  flags := by simpa [FlagsSound, hst] using hs.flags
  checksumFlag := by simp [ChecksumFlagSound]

theorem State.Inv.resynchronize {s : State} (hs : s.Inv) (hst : s.st = .cmd) :
    s.resynchronize.Inv where
  sequencer := by simp [SequencerSound]
  accumulator := by simp [AccumulatorSound]
  result := resultSound_of_clear (hs.result_clear (by simp [hst]))
  candidate := candidateSound_of_clear (hs.result_clear (by simp [hst]))
  flags := by simpa [FlagsSound, hst] using hs.flags
  checksumFlag := by simp [ChecksumFlagSound]

/-- Once locked, the candidate in the buffer has a head and a commandId (R26). -/
theorem State.Inv.body_candidate {s : State} (hs : s.Inv) (hst : s.st = .body) :
    s.buf.head = Config.head ∧ (s.buf.cmd = Config.cmdData ∨ s.buf.cmd = Config.cmdStatus) := by
  obtain ⟨-, -, -, hidx, hhead, hcmd⟩ := hs.sequencer
  have hlocked : 2 ≤ s.idx := hidx hst
  exact ⟨hhead (by simp [hst]) (le_trans (by decide) hlocked), hcmd (by simp [hst]) hlocked⟩

/-- At the checksum and tail offsets the accumulator is the checksum of the buffer (R43). -/
theorem State.Inv.acc_eq_checksum {s : State} (hs : s.Inv) (hst : s.st = .body)
    (hidx : 8 ≤ s.idx) : s.acc = checksum s.buf := by
  rw [hs.accumulator hst, receivedSum_of_le hidx]

/-- The stored byte joins the running sum, and the next offset is at most the checksum's (R139). -/
theorem State.Inv.storePayload {s : State} (hs : s.Inv) (hst : s.st = .body) (lo : 2 ≤ s.idx)
    (hi : s.idx ≤ 7) (b : Byte) : (s.storePayload b).Inv where
  sequencer := by
    obtain ⟨hlo, -⟩ := payload_index_succ lo hi
    have h0 : 0 ≠ s.idx := (lt_of_lt_of_le (by decide) lo).ne
    have h1 : 1 ≠ s.idx := (lt_of_lt_of_le (by decide) lo).ne
    simp [SequencerSound, hst, hlo, h0, h1, hs.body_candidate hst]
  accumulator := by simp [AccumulatorSound, hst, hs.accumulator hst, receivedSum_set_succ _ b lo hi]
  result := resultSound_of_clear (hs.result_clear (by simp [hst]))
  candidate := candidateSound_of_clear (hs.result_clear (by simp [hst]))
  flags := by
    obtain ⟨-, -, hcs, htl⟩ := hs.flags
    have hle : s.idx ≤ 8 := le_trans hi (by decide)
    simp [FlagsSound, hst, hcs hst hle, htl hst]
  checksumFlag := by
    obtain ⟨-, hne⟩ := payload_index_succ lo hi
    simp [ChecksumFlagSound, hne]

/-- The comparison recorded is the one on the buffer: `acc` is its checksum (R140). -/
theorem State.Inv.storeCsum {s : State} (hs : s.Inv) (hst : s.st = .body) (hidx : s.idx = 8)
    (b : Byte) : (s.storeCsum b).Inv where
  sequencer := by simp [SequencerSound, hst, hs.body_candidate hst]
  accumulator := by
    have hacc : s.acc = checksum s.buf := hs.acc_eq_checksum hst (by simp [hidx])
    simp [AccumulatorSound, hacc, receivedSum_of_le]
  result := resultSound_of_clear (hs.result_clear (by simp [hst]))
  candidate := candidateSound_of_clear (hs.result_clear (by simp [hst]))
  flags := by
    obtain ⟨-, -, -, htl⟩ := hs.flags
    simp [FlagsSound, hst, htl hst]
  checksumFlag := by
    have hacc : s.acc = checksum s.buf := hs.acc_eq_checksum hst (by simp [hidx])
    simp [ChecksumFlagSound, checksumValid, hacc, Bool.beq_comm]

/-- The recorded comparison carries over: the tail is not summed (R141). -/
theorem State.Inv.complete {s : State} (hs : s.Inv) (hst : s.st = .body) (hidx : s.idx = 9)
    (b : Byte) : (s.complete b).Inv where
  sequencer := by simp [SequencerSound]
  accumulator := by simp [AccumulatorSound]
  result := by
    obtain ⟨-, -, herr⟩ := hs.result_clear (by simp [hst])
    simp [ResultSound, herr]
  candidate := by
    have hacc : s.acc = checksum s.buf := hs.acc_eq_checksum hst (by simp [hidx])
    have hcs : s.csOk = checksumValid s.buf := hs.checksumFlag hst hidx
    simp [CandidateSound, hacc, hcs, hs.body_candidate hst, checksumValid]
  flags := by simp [FlagsSound]
  checksumFlag := by simp [ChecksumFlagSound]

/-- Every operation keeps the invariant where the state accepts it. -/
theorem effect_inv {s : State} {i : Instr} (hs : s.Inv) (hw : i.wf = true)
    (ha : accepts s.st s.idx i = true) : (effect s i).Inv := by
  cases i
  case rst => exact s.resetRegisters_inv
  case req n =>
    have hst : s.st = .idle := by simpa [accepts] using ha
    rw [effect_req]
    split
    · exact State.rejectRequest_inv hst
    · exact s.startRequest_inv
  case cancel => exact s.raise_inv (by simp) (by simp)
  case ioerr e => exact s.raise_inv (by simp) (by simp)
  case zero => exact s.raise_inv (by simp) (by simp)
  case wait => exact hs
  case huntHead b =>
    obtain rfl : b = Config.head := by simpa [Instr.wf] using hw
    exact hs.storeHead (by simpa [accepts] using ha)
  case huntSkip b => exact hs
  case cmdAcceptData b =>
    exact hs.lock (by simpa [accepts] using ha) (.inl (by simpa [Instr.wf] using hw))
  case cmdAcceptStatus b =>
    exact hs.lock (by simpa [accepts] using ha) (.inr (by simpa [Instr.wf] using hw))
  case cmdReject b => exact hs.resynchronize (by simpa [accepts] using ha)
  case bodyPayload b =>
    obtain ⟨⟨hst, lo⟩, hi⟩ : (s.st = .body ∧ Config.offPayLo ≤ s.idx) ∧ s.idx ≤ Config.offPayHi := by
      simpa [accepts] using ha
    exact hs.storePayload hst lo hi b
  case bodyCsum b =>
    obtain ⟨hst, hidx⟩ : s.st = .body ∧ s.idx = Config.offCsum := by simpa [accepts] using ha
    exact hs.storeCsum hst hidx b
  case bodyTail b =>
    obtain ⟨hst, hidx⟩ : s.st = .body ∧ s.idx = Config.offTail := by simpa [accepts] using ha
    exact hs.complete hst hidx b
  all_goals exact hs.of_sameRegisters (effect_sameRegisters rfl)

/-- Taking a cue and a stream event writes no register. -/
theorem State.Inv.advance {s : State} (hs : s.Inv) : s.advance.Inv :=
  hs.of_sameRegisters (by simp [sameRegisters])

end Machine
end Sys2Proof

open Sys2Proof Sys2Proof.Machine

/-- Settles O46. -/
theorem resetIsSound : Obligations.ResetIsSound := reset_inv

/-- Settles O47: a step has an operation's effect where the state accepts it, or changes no register. -/
theorem stepKeepsTheInvariant : Obligations.StepKeepsTheInvariant := by
  intro s t hs h
  obtain ⟨i, -, hi⟩ | ⟨-, rfl⟩ | ⟨f, -, rfl⟩ := step_next_cases h
  · obtain ⟨hw, ⟨ha, rfl⟩ | ⟨-, rfl⟩⟩ := exec_next_cases hi
    · exact effect_inv hs.advance hw ha
    · exact hs.advance
  · exact hs.advance.of_sameRegisters (by simp [sameRegisters])
  · exact hs.advance.of_sameRegisters (by simp [sameRegisters])

end

section
/-! SUPPORT. What a step can be, and what it can do to the buffer (R22). -/

namespace Sys2Proof.Machine

theorem decodeFrame_format (f : Frame) : (decodeFrame f).format = .frame80 := by
  unfold decodeFrame
  repeat' split
  all_goals rfl

theorem decodeList_format {l : List Byte} {i : Instr} (h : decodeList l = .ok i) :
    i.format = .frame80 := by
  unfold decodeList at h
  split at h
  · cases h
    exact decodeFrame_format _
  · split at h <;> cases h

theorem decodeValidity_format {w : FrameWord} {i : Instr} (h : decodeValidity w = .ok i) :
    i.format = .frame80 := by
  unfold decodeValidity at h
  split at h
  · cases h
    rfl
  · split at h
    · cases h
      rfl
    · cases h

/-- A step is a clock step with the effect of the selected event's operation, or it is a call of the
decoder or of the checks and writes no register. -/
theorem step_clock_or_call {s t : State} (h : step s = .next t) :
    (∃ k, s.clocks k ∧
      t = effect s.advance (decodeEvent s.st s.idx (selectEvent s.st (s.pins k)))) ∨
    sameRegisters t s := by
  have call (hf : ∀ i, decode s.fetch = .ok i → i.format = .frame80) : sameRegisters t s := by
    obtain ⟨i, hd, hi⟩ | ⟨-, rfl⟩ | ⟨f, -, rfl⟩ := step_next_cases h
    · obtain ⟨-, ⟨-, rfl⟩ | ⟨-, rfl⟩⟩ := exec_next_cases hi
      · simpa [sameRegisters] using effect_sameRegisters (s := s.advance) (hf i hd)
      · simp [sameRegisters]
    · simp [sameRegisters]
    · simp [sameRegisters]
  obtain ⟨k, hk, -, hclk⟩ | ⟨l, hl, -⟩ | ⟨w, hw, -⟩ := s.fetch_cases
  · rw [step_of_pins hk] at h
    cases h
    exact .inl ⟨k, hclk, rfl⟩
  · exact .inr (call fun i hd => decodeList_format (by simpa [hl, decode] using hd))
  · exact .inr (call fun i hd => decodeValidity_format (by simpa [hw, decode] using hd))

/-- `RST` is selected only by its port (R94 line 1). -/
theorem selectEvent_eq_rst {st : FsmState} {p : Pins} (h : selectEvent st p = .rst) :
    p.rst = true := by
  unfold selectEvent at h
  split at h
  · assumption
  · repeat' split at h
    all_goals cases h

/-- A byte is selected only while busy, and only when the ports offer it (R94 line 7). -/
theorem selectEvent_eq_byte {st : FsmState} {p : Pins} {b : Byte} (h : selectEvent st p = .byte b) :
    st ≠ .idle ∧ offersByte p b := by
  unfold selectEvent at h
  repeat' split at h
  all_goals cases h
  simp_all [offersByte]

/-- A byte that a busy clock step accepts was the upstream's oldest event and is gone from it (R48). -/
theorem State.streamAfter_of_offersByte {s : State} {k : Tick} {b : Byte} (hst : s.st ≠ .idle)
    (h : offersByte (s.pins k) b) :
    ∃ o : Offer, s.upstream = o :: s.streamAfter k ∧ o.data = b := by
  have haccept : streamAccepted s.st (s.pins k) = true :=
    (decode_of_offersByte (idx := s.idx) hst h).2
  obtain ⟨-, -, hvalid, -, -, hdata⟩ := h
  cases hup : s.upstream with
  | nil => simp [State.pins_inValid_nil hup] at hvalid
  | cons o os =>
    refine ⟨o, by simp [State.streamAfter, haccept, hup], ?_⟩
    simpa [State.pins_cons hup] using hdata

/-- Where a state stores the byte `b`: the offset, and the bytes it stores there (R95, R135 to R141). -/
abbrev storesAt (s : State) (k : Index) (b : Byte) : Prop :=
  s.st = .hunt ∧ k = 0 ∧ b = 0xAA ∨ s.st = .cmd ∧ k = 1 ∧ (b = 0xC0 ∨ b = 0xC5) ∨
    s.st = .body ∧ k = s.idx ∧ 2 ≤ k.val

/-- The operation of a byte leaves the buffer, or stores that byte at one offset. -/
theorem effect_refineByte_buf (s : State) (b : Byte) :
    (effect s (refineByte s.st s.idx b)).buf = s.buf ∨
      ∃ k, storesAt s k b ∧ (effect s (refineByte s.st s.idx b)).buf = s.buf.set k b := by
  unfold refineByte
  split
  next => exact .inl rfl
  next hst =>
    split
    next hb => exact .inr ⟨0, .inl ⟨hst, rfl, eq_of_beq hb⟩, rfl⟩
    next => exact .inl rfl
  next hst =>
    split
    next hb => exact .inr ⟨1, .inr (.inl ⟨hst, rfl, .inl (eq_of_beq hb)⟩), rfl⟩
    next =>
      split
      next hb => exact .inr ⟨1, .inr (.inl ⟨hst, rfl, .inr (eq_of_beq hb)⟩), rfl⟩
      next => exact .inl rfl
  next hst =>
    split
    next hidx => exact .inr ⟨s.idx, .inr (.inr ⟨hst, rfl, hidx.1⟩), rfl⟩
    next =>
      split
      next hidx => exact .inr ⟨8, .inr (.inr ⟨hst, hidx.symm, by decide⟩), rfl⟩
      next =>
        split
        next hidx => exact .inr ⟨9, .inr (.inr ⟨hst, hidx.symm, by decide⟩), rfl⟩
        next => exact .inl rfl

/-- An event writes the buffer only when it is a reset, or a byte that is stored. -/
theorem effect_decodeEvent_buf (s : State) (ev : Event) :
    (effect s (decodeEvent s.st s.idx ev)).buf = s.buf ∨
    (ev = .rst ∧ (effect s (decodeEvent s.st s.idx ev)).buf = Frame.zero) ∨
    ∃ k b, ev = .byte b ∧ storesAt s k b ∧
      (effect s (decodeEvent s.st s.idx ev)).buf = s.buf.set k b := by
  cases ev with
  | rst => exact .inr (.inl ⟨rfl, rfl⟩)
  | byte b =>
    obtain hkept | ⟨k, hk, hset⟩ := effect_refineByte_buf s b
    · exact .inl hkept
    · exact .inr (.inr ⟨k, b, rfl, hk, hset⟩)
  | req n =>
    refine .inl ?_
    simp only [decodeEvent, effect_req]
    split <;> rfl
  | zero | ioerr | cancel | wait => exact .inl rfl

end Sys2Proof.Machine

open Sys2Proof Sys2Proof.Machine

/-- Settles O49. -/
theorem onlyStoringStepsWriteTheBuffer : Obligations.OnlyStoringStepsWriteTheBuffer := by
  intro s t h
  obtain ⟨k, hk, rfl⟩ | ⟨-, -, hbuf, -⟩ := step_clock_or_call h
  · have key := effect_decodeEvent_buf s.advance (selectEvent s.st (s.pins k))
    simp only [State.advance_st, State.advance_idx, State.advance_buf] at key
    obtain hkept | ⟨hrst, hzero⟩ | ⟨j, b, hbyte, hstores, hset⟩ := key
    · exact .inl hkept
    · exact .inr (.inl ⟨hzero, k, hk, by simpa using selectEvent_eq_rst hrst⟩)
    · obtain ⟨hst, hoffer⟩ := selectEvent_eq_byte hbyte
      obtain ⟨o, hup, rfl⟩ := State.streamAfter_of_offersByte hst hoffer
      refine .inr (.inr ⟨j, o, ?_, hset, by simpa [storesAt] using hstores⟩)
      rw [effect_upstream, (State.clocks_fetch hk).2]
      exact hup
  · exact .inl hbuf

end

section
/-! SUPPORT. Sequencing reads no stored byte, no flag and no result register (R22, R47, R200). -/

namespace Sys2Proof.Machine

/-- What the sequential rules read: `st`, `idx`, `acc` and the surroundings. -/
structure SameSequencing (s s' : State) : Prop where
  st : s.st = s'.st
  idx : s.idx = s'.idx
  acc : s.acc = s'.acc
  upstream : s.upstream = s'.upstream
  agenda : s.agenda = s'.agenda

/-- Going from `s` to `t` and from `s'` to `t'`, every other register is written alike or kept. -/
structure WrittenAlike (s s' t t' : State) : Prop where
  buf : ∀ k, sameOrKept (s.buf.get k) (s'.buf.get k) (t.buf.get k) (t'.buf.get k)
  csOk : sameOrKept s.csOk s'.csOk t.csOk t'.csOk
  tlOk : sameOrKept s.tlOk s'.tlOk t.tlOk t'.tlOk
  rstat : sameOrKept s.rstat s'.rstat t.rstat t'.rstat
  cnt : sameOrKept s.cnt s'.cnt t.cnt t'.cnt
  errinfo : sameOrKept s.errinfo s'.errinfo t.errinfo t'.errinfo

section
variable {α : Type} (a a' b : α)

@[simp] theorem sameOrKept_kept : sameOrKept a a' a a' := .inr ⟨rfl, rfl⟩

@[simp] theorem sameOrKept_written : sameOrKept a a' b b := .inl rfl

/-- One stored byte: written alike at its offset, kept at the others. -/
@[simp] theorem sameOrKept_ite (c : Prop) [Decidable c] :
    sameOrKept a a' (if c then b else a) (if c then b else a') := by
  split <;> simp

end

/-- What an operation writes to these it computes from these alone. -/
theorem SameSequencing.effect {s s' : State} (h : SameSequencing s s') (i : Instr) :
    SameSequencing (effect s i) (effect s' i) := by
  obtain ⟨hst, hidx, hacc, hup, hag⟩ := h
  cases i
  case req n =>
    rw [effect_req, effect_req]
    split <;> constructor <;> simp [*]
  all_goals constructor <;> simp [Machine.effect, *]

/-- An operation writes each other register with a value made from its operand, `idx` and `acc`, or not at
all: which of the two, the field laws of the shared operations say. -/
theorem SameSequencing.effect_writtenAlike {s s' : State} (h : SameSequencing s s') (i : Instr) :
    WrittenAlike s s' (Machine.effect s i) (Machine.effect s' i) := by
  obtain ⟨hst, hidx, hacc, hup, hag⟩ := h
  cases i
  case req n =>
    rw [effect_req, effect_req]
    split <;> constructor <;> simp
  all_goals constructor <;> simp [Machine.effect, *]

/-- The ports are driven by the surroundings alone. -/
theorem State.pins_congr {s s' : State} (h : s.upstream = s'.upstream) (k : Tick) :
    s.pins k = s'.pins k := by
  simp [State.pins, h]

/-- The coming step offers the decoder the same. -/
theorem SameSequencing.fetch {s s' : State} (h : SameSequencing s s') : s.fetch = s'.fetch := by
  obtain ⟨hst, hidx, -, hup, hag⟩ := h
  simp only [State.fetch, State.pins_congr hup, hst, hidx, hag]

/-- The coming step takes the same cue and the same stream event. -/
theorem SameSequencing.advance {s s' : State} (h : SameSequencing s s') :
    SameSequencing s.advance s'.advance := by
  obtain ⟨hst, hidx, hacc, hup, hag⟩ := h
  have hstream (k : Tick) : s.streamAfter k = s'.streamAfter k := by
    rw [State.streamAfter, State.streamAfter, State.pins_congr hup, hst, hup]
  have hup' : s.advance.upstream = s'.advance.upstream := by
    unfold State.advance
    rw [hag]
    split <;> simp [hstream, hup]
  constructor <;> simp [*]

/-- Equal operations answer with a next state in both or in neither. -/
theorem SameSequencing.exec_next {s s' t : State} (h : SameSequencing s s') {i : Instr}
    (hi : exec i s = .next t) :
    ∃ t', exec i s' = .next t' ∧ SameSequencing t t' ∧ WrittenAlike s s' t t' := by
  obtain ⟨hw, ⟨ha, rfl⟩ | ⟨ha, rfl⟩⟩ := exec_next_cases hi
  · exact ⟨_, exec_accepted hw (h.st ▸ h.idx ▸ ha), h.effect i, h.effect_writtenAlike i⟩
  · exact ⟨_, exec_unaccepted hw (h.st ▸ h.idx ▸ ha), h, by constructor <;> simp⟩

theorem SameSequencing.step_next {s s' t : State} (h : SameSequencing s s')
    (hstep : step s = .next t) :
    ∃ t', step s' = .next t' ∧ SameSequencing t t' ∧ WrittenAlike s.advance s'.advance t t' := by
  have ha := h.advance
  obtain ⟨i, hd, hi⟩ | ⟨hd, rfl⟩ | ⟨f, hd, rfl⟩ := step_next_cases hstep
  · rw [h.fetch] at hd
    rw [step_of_decode hd]
    exact ha.exec_next hi
  · exact ⟨s'.advance.recordShort, by simp only [step, ← h.fetch, hd],
      ⟨ha.st, ha.idx, ha.acc, ha.upstream, ha.agenda⟩, by constructor <;> simp⟩
  · exact ⟨s'.advance.recordValidity f, by simp only [step, ← h.fetch, hd],
      ⟨ha.st, ha.idx, ha.acc, ha.upstream, ha.agenda⟩, by constructor <;> simp⟩

end Sys2Proof.Machine

open Sys2Proof Sys2Proof.Machine

/-- Settles O50. -/
theorem sequencingIgnoresStoredBytes : Obligations.SequencingIgnoresStoredBytes := by
  intro s s' t hst hidx hacc hup hag h
  obtain ⟨t', ht', hseq, hw⟩ := SameSequencing.step_next ⟨hst, hidx, hacc, hup, hag⟩ h
  obtain ⟨hbuf, hcs, htl, hrs, hcnt, herr⟩ := hw
  simp only [State.advance_buf, State.advance_csOk, State.advance_tlOk, State.advance_rstat,
    State.advance_cnt, State.advance_errinfo] at hbuf hcs htl hrs hcnt herr
  exact ⟨t', ht', hseq.st, hseq.idx, hseq.acc, hseq.upstream, hseq.agenda, hbuf, hcs, htl, hrs,
    hcnt, herr⟩

end

section
/-! SUPPORT. The output ports as functions of the registers, with and without the exposure gate (R30 to
R33). -/

namespace Sys2Proof.Machine

/-- The outputs are functions of the registers alone (R15). -/
theorem outputs_of_sameRegisters {s t : State} (h : sameRegisters s t) : s.outputs = t.outputs := by
  obtain ⟨hst, hidx, hbuf, hacc, hcs, htl, hrs, hcnt, herr⟩ := h
  cases s
  cases t
  subst_vars
  rfl

theorem State.gate_eq_true {s : State} (h : s.rstat = .ok) : s.gate = true := by
  simp [State.gate, h]

theorem State.gate_eq_false {s : State} (h : s.rstat ≠ .ok) : s.gate = false := by
  simp [State.gate, h]

/-- Under the gate the decoder answers on the buffer (R39, R40). -/
theorem State.response_of_ok {s : State} (h : s.rstat = .ok) :
    s.response = Response.ofFrame (decode10 s.buf) s.buf := by
  simp [State.response, State.gate_eq_true h]

/-- Without the gate it answers as on a short list (R33). -/
theorem State.response_of_not_ok {s : State} (h : s.rstat ≠ .ok) : s.response = Response.short := by
  simp [State.response, State.gate_eq_false h]

theorem isCommandId_iff {b : Byte} : isCommandId b = true ↔ b = 0xC0 ∨ b = 0xC5 := by
  simp [isCommandId, Config.cmdData, Config.cmdStatus]

end Sys2Proof.Machine

open Sys2Proof Sys2Proof.Machine

/-- Settles O1: the registers after `RST` are those of `State.reset`, and the outputs read nothing else. -/
theorem resetValuesAndOutputs : Obligations.ResetValuesAndOutputs := by
  have hrst (s : State) : exec .rst s = .next s.resetRegisters := exec_accepted rfl rfl
  refine ⟨fun s => ⟨s.resetRegisters, hrst s, resetRegisters_sameRegisters s,
    outputs_of_sameRegisters (resetRegisters_sameRegisters s)⟩, ?_⟩
  exact ⟨rfl, rfl, Frame.get_zero, rfl, rfl, rfl, rfl, rfl, rfl, rfl⟩

/-- Settles O41. -/
theorem handshakeOutputs : Obligations.HandshakeOutputs := by
  intro s
  refine ⟨?busy, ?reqReady, ?inReady, ?done⟩
  case busy => simp [State.outputs, State.busy]
  case reqReady => simp [State.outputs]
  case inReady => simp [State.outputs]
  case done => simp [State.outputs, State.done]

/-- Settles O42. -/
theorem frameOutputsUnderTheGate : Obligations.FrameOutputsUnderTheGate := by
  intro s hok
  simp [State.outputs, State.gate_eq_true hok, State.response_of_ok hok, Response.ofFrame,
    isCommandId_iff, Config.head, subtypeTap, pm25Tap, pm10Tap, devIdTap]

/-- Settles O43: a closed gate nulls the flags, and the decoder's answer is the short one. -/
theorem gateHidesTheBuffer : Obligations.GateHidesTheBuffer := by
  intro s hok
  simp [State.outputs, State.gate_eq_false hok, State.response_of_not_ok hok, Response.short]

/-- Settles O45. -/
theorem numericCodes : Obligations.NumericCodes :=
  ⟨rfl, rfl, rfl⟩

end

section
/-! SUPPORT. What a step takes from the stream (R67, R70), and that a clock step in `IDLE` without a request
or a reset writes nothing (R71). -/

namespace Sys2Proof.Machine

/-- Whatever a step is, the stream it leaves is the one that `advance` left. -/
theorem step_upstream {s t : State} (h : step s = .next t) : t.upstream = s.advance.upstream := by
  obtain ⟨i, -, hi⟩ | ⟨-, rfl⟩ | ⟨f, -, rfl⟩ := step_next_cases h
  · obtain ⟨-, ⟨-, rfl⟩ | ⟨-, rfl⟩⟩ := exec_next_cases hi
    · exact effect_upstream _ i
    · rfl
  · rfl
  · rfl

/-- An event on the ports needs an upstream that holds one and offers it. -/
theorem State.pins_inValid_eq_true {s : State} {k : Tick} (h : (s.pins k).inValid = true) :
    k.streamReady = true ∧ ∃ o os, s.upstream = o :: os := by
  cases hup : s.upstream with
  | nil => simp [State.pins_inValid_nil hup] at h
  | cons o os => exact ⟨by simpa [State.pins_cons hup] using h, o, os, rfl⟩

/-- A clock step leaves the stream, or takes its oldest event under the handshake of R41. -/
theorem State.streamAfter_cases (s : State) (k : Tick) :
    s.streamAfter k = s.upstream ∨
    ∃ o : Offer, s.upstream = o :: s.streamAfter k ∧ s.st ≠ .idle ∧ k.streamReady = true ∧
      k.cancel = false ∧ k.rst = false := by
  cases hacc : streamAccepted s.st (s.pins k) with
  | false => exact .inl (by simp [State.streamAfter, hacc])
  | true =>
    obtain ⟨⟨⟨hvalid, hst⟩, hcancel⟩, hrst⟩ : (((s.pins k).inValid = true ∧ s.st ≠ .idle) ∧
        k.cancel = false) ∧ k.rst = false := by
      simpa [streamAccepted] using hacc
    obtain ⟨hready, o, os, hup⟩ := State.pins_inValid_eq_true hvalid
    exact .inr ⟨o, by simp [State.streamAfter, hacc, hup], hst, hready, hcancel, hrst⟩

/-- In `IDLE` the stream is not read (R70). -/
theorem State.streamAfter_idle {s : State} (k : Tick) (hst : s.st = .idle) :
    s.streamAfter k = s.upstream := by
  simp [State.streamAfter, hst]

/-- Line 3 of R94. -/
theorem selectEvent_idle_wait {p : Pins} (hrst : p.rst = false) (hreq : p.reqValid = false) :
    selectEvent .idle p = .wait := by
  simp [selectEvent, hrst, hreq]

/-- A clock step takes its cue and its stream event and has the effect of the selected event. -/
theorem step_of_clocks {s : State} {k : Tick} (h : s.clocks k) :
    step s = .next (effect { s with agenda := s.agenda.tail, upstream := s.streamAfter k }
      (decodeEvent s.st s.idx (selectEvent s.st (s.pins k)))) := by
  obtain ⟨hfetch, hadv⟩ := State.clocks_fetch h
  rw [step_of_pins hfetch, hadv]

end Sys2Proof.Machine

open Sys2Proof Sys2Proof.Machine

/-- Settles O51: only `advance` takes from the stream, and only on a clock step. -/
theorem streamIsReadInOrderAndOnlyWhileBusy : Obligations.StreamIsReadInOrderAndOnlyWhileBusy := by
  intro s t h
  rw [step_upstream h]
  obtain ⟨k, -, hup, hclk⟩ | ⟨l, -, hup, -⟩ | ⟨w, -, hup, -⟩ := s.fetch_cases
  · rw [hup]
    obtain hkept | ⟨o, htaken, hst, hready, hcancel, hrst⟩ := s.streamAfter_cases k
    · exact .inl hkept
    · exact .inr ⟨o, k, htaken, hclk, hst, hready, hcancel, hrst⟩
  · exact .inl hup
  · exact .inl hup

/-- Settles O52: the step is a wait, and the outputs read registers alone. -/
theorem idleResultStaysConstant : Obligations.IdleResultStaysConstant := by
  intro s k hst hclk hrst hreq
  have hwait : selectEvent s.st (s.pins k) = .wait := by
    rw [hst]
    exact selectEvent_idle_wait (by simpa using hrst) (by simpa using hreq)
  refine ⟨{ s with agenda := s.agenda.tail }, ?_, rfl,
    outputs_of_sameRegisters (by simp [sameRegisters])⟩
  rw [step_of_clocks hclk, hwait, State.streamAfter_idle k hst]
  rfl

end

section
/-! SUPPORT. A script of events: what its first event drives on the ports and takes from the stream when it
is loaded, and that the rest stays loaded (R76, R93). -/

namespace Sys2Proof.Machine

/-- An event is accepted where its operation is: for a byte, R95 refines it to one that is (R93). -/
theorem accepts_decodeEvent {st : FsmState} {idx : Index} {ev : Event}
    (h : eventAccepted st ev = true) : accepts st idx (decodeEvent st idx ev) = true := by
  cases ev
  case byte b => exact (refineByte_sound st idx b).2
  all_goals exact h

/-- An accepted event has the effect of its operation. -/
theorem stepEvent_accepted {s : State} {ev : Event} (h : eventAccepted s.st ev = true) :
    stepEvent s ev = .next (effect s (decodeEvent s.st s.idx ev)) :=
  exec_accepted (decodeEvent_wf _ _ _) (accepts_decodeEvent h)

/-- An event that the state does not accept is a wait (R93). -/
theorem stepEvent_unaccepted {s : State} {ev : Event} (h : eventAccepted s.st ev = false) :
    stepEvent s ev = .next s := by
  cases ev
  case byte b =>
    have hst : s.st = .idle := by simpa [eventAccepted] using h
    have hwait : decodeEvent s.st s.idx (.byte b) = .wait := by rw [hst]; rfl
    rw [stepEvent, hwait]
    exact exec_accepted rfl rfl
  all_goals exact exec_unaccepted (decodeEvent_wf _ _ _) h

/-- An upstream that is not ready offers nothing. -/
theorem State.pins_inValid_not_ready (s : State) {k : Tick} (h : k.streamReady = false) :
    (s.pins k).inValid = false := by
  cases hv : (s.pins k).inValid with
  | false => rfl
  | true => simp [(State.pins_inValid_eq_true hv).1] at h

@[simp] theorem State.load_st (s : State) (evs : List Event) : (s.load evs).st = s.st := rfl

@[simp] theorem State.load_idx (s : State) (evs : List Event) : (s.load evs).idx = s.idx := rfl

@[simp] theorem State.load_upstream (s : State) (evs : List Event) :
    (s.load evs).upstream = evs.filterMap offerOf ++ s.upstream := rfl

/-- No operation reads the agenda or the stream, so it may be loaded before or after. -/
theorem effect_load (s : State) (evs : List Event) (i : Instr) :
    effect (s.load evs) i = (effect s i).load evs := by
  cases i
  case req n =>
    rw [effect_req, effect_req]
    split <;> rfl
  all_goals rfl

/-- The tick and the offer of an event make the ports select that event where it is accepted (R94). -/
theorem selectEvent_load {s : State} {ev : Event} (evs : List Event)
    (h : eventAccepted s.st ev = true) :
    selectEvent s.st ((s.load (ev :: evs)).pins (tickOf ev)) = ev := by
  cases ev
  case rst => simp [selectEvent, tickOf]
  case req n =>
    have hst : s.st = .idle := by simpa [eventAccepted] using h
    simp [selectEvent, tickOf, Tick.quiet, hst]
  case cancel =>
    have hst : s.st ≠ .idle := by simpa [eventAccepted] using h
    simp [selectEvent, tickOf, Tick.quiet, hst]
  case wait => simp [selectEvent, tickOf, Tick.quiet, State.pins_inValid_not_ready]
  case byte | zero | ioerr =>
    have hst : s.st ≠ .idle := by simpa [eventAccepted] using h
    rw [State.pins_cons rfl]
    simp [selectEvent, tickOf, Tick.quiet, hst, Offer.ofByte, Offer.ofZero, Offer.ofIoerr]

/-- A loaded event takes its own offer from the stream, and nothing when it has none. -/
theorem streamAfter_load {s : State} {ev : Event} (evs : List Event)
    (h : eventAccepted s.st ev = true) :
    (s.load (ev :: evs)).streamAfter (tickOf ev) = (s.load evs).upstream := by
  cases ev
  case rst | req | cancel | wait =>
    simp [State.streamAfter, streamAccepted, State.pins_inValid_not_ready, tickOf, offerOf,
      List.filterMap_cons]
  case byte | zero | ioerr =>
    have hst : s.st ≠ .idle := by simpa [eventAccepted] using h
    rw [State.streamAfter, State.pins_cons rfl]
    simp [streamAccepted, tickOf, Tick.quiet, hst, offerOf]

/-- The machine's step of a loaded script is its first event's effect, with the rest still loaded. -/
theorem step_load_cons {s : State} {ev : Event} (evs : List Event)
    (h : eventAccepted s.st ev = true) :
    step (s.load (ev :: evs)) = .next ((effect s (decodeEvent s.st s.idx ev)).load evs) := by
  have hrest : { s.load (ev :: evs) with
        agenda := (s.load (ev :: evs)).agenda.tail
        upstream := (s.load (ev :: evs)).streamAfter (tickOf ev) } = s.load evs := by
    rw [streamAfter_load evs h]
    rfl
  rw [step_of_clocks (.inl rfl), hrest, State.load_st, State.load_idx, selectEvent_load evs h,
    effect_load]

/-- A script of accepted events begins with an accepted one, and its rest is accepted where that leads. -/
theorem acceptedRun_cons {s : State} {ev : Event} {evs : List Event}
    (h : acceptedRun (ev :: evs) s = true) :
    eventAccepted s.st ev = true ∧
      acceptedRun evs (effect s (decodeEvent s.st s.idx ev)) = true := by
  rw [acceptedRun, Bool.and_eq_true] at h
  obtain ⟨hev, hrest⟩ := h
  rw [stepEvent_accepted hev] at hrest
  exact ⟨hev, hrest⟩

/-- The machine runs a loaded script of accepted events as `runEvents` does (R76). -/
theorem runSteps_load (evs : List Event) (s : State) (h : acceptedRun evs s = true) :
    runSteps evs.length (s.load evs) = runEvents evs s := by
  induction evs generalizing s with
  | nil => rfl
  | cons ev evs ih =>
    obtain ⟨hev, hrest⟩ := acceptedRun_cons h
    rw [List.length_cons, runSteps_succ_of_step (step_load_cons evs hev), ih _ hrest, runEvents,
      stepEvent_accepted hev]

end Sys2Proof.Machine

open Sys2Proof Sys2Proof.Machine

/-- Settles O55, by induction on the script: each step runs the first event and leaves the rest loaded. -/
theorem loadedScriptRunsAsItsEvents : Obligations.LoadedScriptRunsAsItsEvents :=
  ⟨runSteps_load, fun _ _ => stepEvent_unaccepted⟩

end

section
/-! SUPPORT. Masks on the 80-bit packing are masks on the bytes (R62, R103, R104). -/

namespace Sys2Proof

/-- A fact about every frame offset is ten facts. -/
theorem Index.forall_iff {P : Index → Prop} :
    (∀ k, P k) ↔ P 0 ∧ P 1 ∧ P 2 ∧ P 3 ∧ P 4 ∧ P 5 ∧ P 6 ∧ P 7 ∧ P 8 ∧ P 9 := by
  refine ⟨fun h => ⟨h 0, h 1, h 2, h 3, h 4, h 5, h 6, h 7, h 8, h 9⟩, ?_⟩
  rintro ⟨h0, h1, h2, h3, h4, h5, h6, h7, h8, h9⟩ k
  fin_cases k <;> assumption

/-- A word masked with a packed mask is a packed match exactly when every byte is. -/
theorem Frame.and_toWord_eq_toWord_iff {w : FrameWord} {mask pattern : Frame} :
    w &&& mask.toWord = pattern.toWord ↔
      ∀ k, (Frame.ofWord w).get k &&& mask.get k = pattern.get k := by
  have bit (k : Index) (j : Nat) (hj : j < 8) :
      (w &&& mask.toWord).getLsbD (8 * k.val + j) =
        ((Frame.ofWord w).get k &&& mask.get k).getLsbD j := by
    rw [BitVec.getLsbD_and, BitVec.getLsbD_and, Frame.getLsbD_toWord _ _ _ hj,
      Frame.getLsbD_get_ofWord _ _ _ hj]
  constructor
  · intro h k
    refine BitVec.eq_of_getLsbD_eq fun j hj => ?_
    rw [← bit k j hj, h, Frame.getLsbD_toWord _ _ _ hj]
  · intro h
    refine BitVec.eq_of_getLsbD_eq fun i hi => ?_
    have hbyte := bit ⟨i / 8, by omega⟩ (i % 8) (by omega)
    rw [h, ← Frame.getLsbD_toWord _ _ _ (by omega)] at hbyte
    simpa [Nat.div_add_mod] using hbyte

/-- A mask of all eight bits keeps the byte. -/
theorem and_mask_byte (b : Byte) : b &&& 0xFF#8 = b :=
  BitVec.and_allOnes

/-- The mask of the rows that fix the commandId alone (R103). -/
theorem cmdMask_iff (w : FrameWord) (c : Byte) :
    w &&& 0x0000000000000000FF00 = Frame.toWord { Frame.zero with cmd := c } ↔
      (Frame.ofWord w).cmd = c := by
  have hmask : (0x0000000000000000FF00 : FrameWord) =
      Frame.toWord { Frame.zero with cmd := 0xFF } := rfl
  rw [hmask, Frame.and_toWord_eq_toWord_iff, Index.forall_iff]
  simp [Frame.get, Frame.zero, and_mask_byte]

/-- The mask of the rows that fix the commandId and the subtype (R103). -/
theorem subtypeMask_iff (w : FrameWord) (c sub : Byte) :
    w &&& 0x00000000000000FFFF00 = Frame.toWord { Frame.zero with cmd := c, p2 := sub } ↔
      (Frame.ofWord w).cmd = c ∧ (Frame.ofWord w).p2 = sub := by
  have hmask : (0x00000000000000FFFF00 : FrameWord) =
      Frame.toWord { Frame.zero with cmd := 0xFF, p2 := 0xFF } := rfl
  rw [hmask, Frame.and_toWord_eq_toWord_iff, Index.forall_iff]
  simp [Frame.get, Frame.zero, and_mask_byte]

/-- The validity mask fixes the head, the commandId and the tail (R104). -/
theorem validityMask_iff {w : FrameWord} {c : Byte} :
    w &&& validityMask = validityMatch c ↔
      (Frame.ofWord w).head = Config.head ∧ (Frame.ofWord w).cmd = c ∧
        (Frame.ofWord w).tail = Config.tail := by
  rw [validityMask, validityMatch, Frame.and_toWord_eq_toWord_iff, Index.forall_iff]
  simp [Frame.get, Frame.zero, and_mask_byte]

end Sys2Proof
end

section
/-! SUPPORT. What the decoders give: for ten bytes, for a byte list by its length, for a frame word, and for
what the encoder writes (R103 to R106). -/

namespace Sys2Proof

open Machine

/-- A status subtype row looks at offsets 1 and 2. -/
theorem isStatusFrame_iff {f : Frame} {sub : Byte} :
    isStatusFrame sub f = true ↔ f.cmd = Config.cmdStatus ∧ f.p2 = sub := by
  simp [isStatusFrame]

theorem cmdStatus_ne_cmdData : Config.cmdStatus ≠ Config.cmdData := by decide

/-- The decoder's row of ten bytes admits them (R103). -/
theorem decodeFrame_wf (f : Frame) : (decodeFrame f).wf = true := by
  unfold decodeFrame
  repeat' split
  all_goals simp_all [Instr.wf, isStatusFrame, isListedSubtype]

/-- The dispatch of a data frame reads no subtype (R103 row 1). -/
theorem decodeFrame_of_data {f : Frame} (h : f.cmd = Config.cmdData) :
    decodeFrame f = .decData f := by
  simp [decodeFrame, h]

/-- The dispatch of a status frame is by its subtype (R103 rows 2 to 7). -/
theorem decodeFrame_of_status {f : Frame} (h : f.cmd = Config.cmdStatus) :
    decodeFrame f =
      if f.p2 = Config.subReportingMode then .decStatusReportingMode f
      else if f.p2 = Config.subDeviceId then .decStatusDeviceId f
      else if f.p2 = Config.subWorkingMode then .decStatusWorkingMode f
      else if f.p2 = Config.subFirmware then .decStatusFirmware f
      else if f.p2 = Config.subWorkingPeriod then .decStatusWorkingPeriod f
      else .decStatusOther f := by
  simp [decodeFrame, h, cmdStatus_ne_cmdData]

/-- Ten bytes with neither commandId are the default row (R103 row 8). -/
theorem decodeFrame_of_other {f : Frame} (hdata : f.cmd ≠ Config.cmdData)
    (hstatus : f.cmd ≠ Config.cmdStatus) : decodeFrame f = .decBadType f := by
  simp [decodeFrame, hdata, hstatus]

theorem decodeList_bytes (f : Frame) : decodeList f.bytes = .ok (decodeFrame f) := rfl

theorem decodeList_of_lt {l : List Byte} (h : l.length < 10) : decodeList l = .error .short := by
  have hnone : Frame.ofBytes l = none := Frame.ofBytes_eq_none.mpr (by omega)
  simp [decodeList, hnone, Config.frameLen, h]

theorem decodeList_of_gt {l : List Byte} (h : 10 < l.length) : decodeList l = .error .tooLong := by
  have hnone : Frame.ofBytes l = none := Frame.ofBytes_eq_none.mpr (by omega)
  simp [decodeList, hnone, Config.frameLen, Nat.not_lt_of_gt h]

theorem decodeList_wf {l : List Byte} {i : Instr} (h : decodeList l = .ok i) : i.wf = true := by
  unfold decodeList at h
  split at h
  · cases h
    exact decodeFrame_wf _
  · split at h <;> cases h

/-- The word decoder reads the bytes: a validity row is taken exactly when it admits them (R104). -/
theorem decodeValidity_eq (w : FrameWord) :
    decodeValidity w =
      if (Instr.validData (Frame.ofWord w)).wf then .ok (.validData (Frame.ofWord w))
      else if (Instr.validStatus (Frame.ofWord w)).wf then .ok (.validStatus (Frame.ofWord w))
      else .error (.notValid (Frame.ofWord w)) := by
  simp only [decodeValidity, Instr.wf, Bool.and_eq_true, beq_iff_eq, validityMask_iff, and_assoc]

theorem decodeValidity_wf {w : FrameWord} {i : Instr} (h : decodeValidity w = .ok i) :
    i.wf = true := by
  rw [decodeValidity_eq] at h
  split at h
  next hw =>
    cases h
    exact hw
  next =>
    split at h
    next hw =>
      cases h
      exact hw
    next => cases h

theorem decodeValidity_validData {f : Frame} (h : (Instr.validData f).wf = true) :
    decodeValidity f.toWord = .ok (.validData f) := by
  rw [decodeValidity_eq, Frame.ofWord_toWord, if_pos h]

/-- No frame is admitted by both validity rows: their command IDs differ. -/
theorem decodeValidity_validStatus {f : Frame} (h : (Instr.validStatus f).wf = true) :
    decodeValidity f.toWord = .ok (.validStatus f) := by
  have hdata : (Instr.validData f).wf ≠ true := by
    intro hd
    have hc0 : f.cmd = Config.cmdData := by simp_all [Instr.wf]
    have hc5 : f.cmd = Config.cmdStatus := by simp_all [Instr.wf]
    exact cmdStatus_ne_cmdData (hc5.symm.trans hc0)
  rw [decodeValidity_eq, Frame.ofWord_toWord, if_neg hdata, if_pos h]

/-- No event is an operation on a frame (R102). -/
theorem decodeEvent_format (st : FsmState) (idx : Index) (ev : Event) :
    (decodeEvent st idx ev).format ≠ .frame80 := by
  cases ev
  case byte b =>
    simp only [decodeEvent, refineByte]
    repeat' split
    all_goals simp [Instr.format]
  all_goals simp [decodeEvent, Instr.format]

/-- The operation of an offered byte is the one R95 refines it to. -/
theorem decode_ofByte {st : FsmState} (idx : Index) (b : Byte) (h : st ≠ .idle) :
    decode (.pins st idx (Pins.ofByte b)) = .ok (refineByte st idx b) :=
  (decode_of_offersByte h ⟨rfl, rfl, rfl, rfl, rfl, rfl⟩).1

end Sys2Proof

open Sys2Proof Sys2Proof.Machine

/-- Settles O21: by the rows of the table, each with the decoder of its format. -/
theorem decodeOfEncodeIsTheOperation : Obligations.DecodeOfEncodeIsTheOperation := by
  intro i hw
  cases i
  case rst | req | cancel | ioerr | zero | wait => rfl
  case huntHead b | huntSkip b | cmdAcceptData b | cmdAcceptStatus b | cmdReject b =>
    rw [encode, decode_ofByte _ _ (by decide)]
    simp_all [Instr.wf, refineByte, cmdStatus_ne_cmdData]
  case bodyPayload b | bodyCsum b | bodyTail b => exact decode_ofByte _ b (by decide)
  case decData f =>
    exact congrArg Except.ok (decodeFrame_of_data (by simpa [Instr.wf] using hw))
  case decStatusReportingMode f | decStatusDeviceId f | decStatusWorkingMode f
      | decStatusFirmware f | decStatusWorkingPeriod f =>
    obtain ⟨hcmd, hsub⟩ := isStatusFrame_iff.mp hw
    refine congrArg Except.ok ((decodeFrame_of_status hcmd).trans ?_)
    rw [hsub]
    rfl
  case decStatusOther f =>
    obtain ⟨hcmd, hsub⟩ : f.cmd = Config.cmdStatus ∧ isListedSubtype f.p2 = false := by
      simpa [Instr.wf] using hw
    refine congrArg Except.ok ((decodeFrame_of_status hcmd).trans ?_)
    simp_all [isListedSubtype]
  case decBadType f =>
    obtain ⟨hdata, hstatus⟩ : f.cmd ≠ Config.cmdData ∧ f.cmd ≠ Config.cmdStatus := by
      simpa [Instr.wf] using hw
    exact congrArg Except.ok (decodeFrame_of_other hdata hstatus)
  case validData f => exact decodeValidity_validData hw
  case validStatus f => exact decodeValidity_validStatus hw

end

section
/-! SUPPORT. The table's mask words against the decoders (R103 to R105), and the checksum byte as the integer
constraint (R101). -/

namespace Sys2Proof

open Machine

/-- The first matching row of the table's words is the dispatch on the bytes (R105). -/
theorem dispatchByMask_eq_decodeFrame (w : FrameWord) :
    dispatchByMask w = decodeFrame (Frame.ofWord w) := by
  have data : w &&& 0x0000000000000000FF00 = 0x0000000000000000C000 ↔
    (Frame.ofWord w).cmd = Config.cmdData :=
    cmdMask_iff _ Config.cmdData
  have status : w &&& 0x0000000000000000FF00 = 0x0000000000000000C500 ↔
    (Frame.ofWord w).cmd = Config.cmdStatus :=
    cmdMask_iff _ Config.cmdStatus
  have reportingMode : w &&& 0x00000000000000FFFF00 = 0x0000000000000002C500 ↔
    (Frame.ofWord w).cmd = Config.cmdStatus ∧ (Frame.ofWord w).p2 = Config.subReportingMode :=
    subtypeMask_iff _ Config.cmdStatus Config.subReportingMode
  have deviceId : w &&& 0x00000000000000FFFF00 = 0x0000000000000005C500 ↔
    (Frame.ofWord w).cmd = Config.cmdStatus ∧ (Frame.ofWord w).p2 = Config.subDeviceId :=
    subtypeMask_iff _ Config.cmdStatus Config.subDeviceId
  have workingMode : w &&& 0x00000000000000FFFF00 = 0x0000000000000006C500 ↔
    (Frame.ofWord w).cmd = Config.cmdStatus ∧ (Frame.ofWord w).p2 = Config.subWorkingMode :=
    subtypeMask_iff _ Config.cmdStatus Config.subWorkingMode
  have firmware : w &&& 0x00000000000000FFFF00 = 0x0000000000000007C500 ↔
    (Frame.ofWord w).cmd = Config.cmdStatus ∧ (Frame.ofWord w).p2 = Config.subFirmware :=
    subtypeMask_iff _ Config.cmdStatus Config.subFirmware
  have workingPeriod : w &&& 0x00000000000000FFFF00 = 0x0000000000000008C500 ↔
    (Frame.ofWord w).cmd = Config.cmdStatus ∧ (Frame.ofWord w).p2 = Config.subWorkingPeriod :=
    subtypeMask_iff _ Config.cmdStatus Config.subWorkingPeriod
  simp only [dispatchByMask, beq_iff_eq, data, status, reportingMode, deviceId, workingMode,
    firmware, workingPeriod]
  by_cases hdata : (Frame.ofWord w).cmd = Config.cmdData
  · simp only [hdata, if_true, decodeFrame_of_data]
  · by_cases hstatus : (Frame.ofWord w).cmd = Config.cmdStatus
    · simp only [hstatus, cmdStatus_ne_cmdData, true_and, if_true, if_false, decodeFrame_of_status]
    · simp only [hdata, hstatus, false_and, if_false, decodeFrame_of_other, not_false_eq_true, ne_eq]

/-- The checksum is the integer sum of the payload bytes modulo 256 (R160). -/
theorem checksum_toNat (f : Frame) : (checksum f).toNat = payloadSum f % 256 := by
  simp [checksum, BitVec.toNat_add]

/-- The constraint of R101 is the comparison of bytes (R164). -/
theorem csum_toNat_iff {f : Frame} : f.csum.toNat = payloadSum f % 256 ↔ f.csum = checksum f := by
  rw [← checksum_toNat, BitVec.toNat_inj]

/-- A validity pattern with the checksum constraint is `IsValid` at its commandId (R104, R166). -/
theorem validityPattern_iff {f : Frame} {c : Byte} (hc : isCommandId c = true) :
    (f.toWord &&& validityMask = validityMatch c ∧ f.csum.toNat = payloadSum f % 256) ↔
      isValid f = true ∧ f.cmd = c := by
  rw [validityMask_iff, csum_toNat_iff, Frame.ofWord_toWord]
  constructor
  · rintro ⟨⟨hhead, hcmd, htail⟩, hcsum⟩
    simp [isValid, checksumValid, *]
  · rintro ⟨hvalid, rfl⟩
    simp_all [isValid, checksumValid]

/-- A valid frame is admitted by the row of its commandId (R104). -/
theorem validData_wf {f : Frame} (h : isValid f = true) (hcmd : f.cmd = 0xC0) :
    (Instr.validData f).wf = true := by
  simp_all [isValid, checksumValid, Instr.wf, Config.cmdData]

theorem validStatus_wf {f : Frame} (h : isValid f = true) (hcmd : f.cmd ≠ 0xC0) :
    (Instr.validStatus f).wf = true := by
  simp_all [isValid, checksumValid, Instr.wf, isCommandId, Config.cmdData]

end Sys2Proof

open Sys2Proof Sys2Proof.Machine

/-- Settles O22: a mask on the word is a mask on its bytes. -/
theorem dispatchIsTheFirstMatchingRow : Obligations.DispatchIsTheFirstMatchingRow := by
  intro w
  rw [dispatchByMask_eq_decodeFrame]
  exact decodeList_bytes _

/-- Settles O23: each pattern is `IsValid` at its commandId, and a valid frame has one of the two. -/
theorem validityPatternsAreIsValid : Obligations.ValidityPatternsAreIsValid := by
  intro f
  refine ⟨validityPattern_iff (c := 0xC0) rfl, validityPattern_iff (c := 0xC5) rfl,
    fun hvalid => ?_⟩
  split
  next hcmd => exact decodeValidity_validData (validData_wf hvalid hcmd)
  next hcmd => exact decodeValidity_validStatus (validStatus_wf hvalid hcmd)

end

section
/-! SUPPORT. What every decoder gives is well formed (R95, R103, R104), what selects each byte operation
(R95), and from what a step has no operation (R106, R181). -/

namespace Sys2Proof

open Machine

/-- Every decoder gives well-formed operations only. -/
theorem decode_wf {e : Encoded} {i : Instr} (h : decode e = .ok i) : i.wf = true := by
  cases e with
  | pins st idx p =>
    cases h
    exact decodeEvent_wf st idx _
  | dispatch l => exact decodeList_wf h
  | validity w => exact decodeValidity_wf h

/-- Nothing but a list of more than ten bytes is too long (R181). -/
theorem decode_eq_tooLong {e : Encoded} (h : decode e = .error .tooLong) :
    ∃ l, e = .dispatch l ∧ 10 < l.length := by
  cases e with
  | pins st idx p => cases h
  | dispatch l =>
    refine ⟨l, rfl, ?_⟩
    rcases lt_trichotomy l.length 10 with hlt | heq | hgt
    · simp [decode, decodeList_of_lt hlt] at h
    · cases hf : Frame.ofBytes l with
      | none => exact absurd heq (Frame.ofBytes_eq_none.mp hf)
      | some f => simp [decode, decodeList, hf] at h
    · exact hgt
  | validity w =>
    rw [decode, decodeValidity_eq] at h
    split at h
    · cases h
    · split at h <;> cases h

/-- In `BODY` the index alone selects the operation of a byte (R95). -/
theorem refineByte_body_payload {idx : Index} (b : Byte) (lo : 2 ≤ idx.val) (hi : idx.val ≤ 7) :
    refineByte .body idx b = .bodyPayload b :=
  if_pos ⟨lo, hi⟩

theorem refineByte_body_csum (b : Byte) : refineByte .body 8 b = .bodyCsum b := rfl

theorem refineByte_body_tail (b : Byte) : refineByte .body 9 b = .bodyTail b := rfl

/-- No row of R95 takes a byte in `BODY` before offset 2. -/
theorem refineByte_body_wait {idx : Index} (b : Byte) (h : idx.val < 2) :
    refineByte .body idx b = .wait := by
  obtain rfl | rfl : idx = 0 ∨ idx = 1 := by
    revert idx
    decide
  · rfl
  · rfl

/-- The ranges of the index that R95 tells apart in `BODY`. -/
theorem bodyIndex_cases (idx : Index) :
    (idx.val < 2 ∧ ¬ 2 ≤ idx.val ∧ idx ≠ 8 ∧ idx ≠ 9) ∨
      (2 ≤ idx.val ∧ idx.val ≤ 7 ∧ idx ≠ 8 ∧ idx ≠ 9) ∨ idx = 8 ∨ idx = 9 := by
  revert idx
  decide

namespace Machine

/-- Operands that the row excludes are refused. -/
theorem exec_illFormed {i : Instr} (s : State) (h : i.wf = false) :
    exec i s = .refused .illFormed := by
  simp [exec_eq_perform, perform, h]

/-- A well-formed operation has a next state in every state: its effect, or a wait. -/
theorem exec_wf {i : Instr} (s : State) (h : i.wf = true) : ∃ t, exec i s = .next t := by
  cases ha : accepts s.st s.idx i with
  | true => exact ⟨_, exec_accepted h ha⟩
  | false => exact ⟨s, exec_unaccepted h ha⟩

/-- `Decode` of more than ten bytes is refused (R181). -/
theorem step_of_tooLong {s : State} (h : decode s.fetch = .error .tooLong) :
    step s = .refused .listTooLong := by
  simp [step, h]

/-- What the coming step fetches when a call of `Decode` is first on the agenda. -/
theorem State.fetch_dispatch_iff {s : State} {l : List Byte} :
    s.fetch = .dispatch l ↔ s.agenda.head? = some (.decode l) := by
  unfold State.fetch
  rcases s.agenda with _ | ⟨_ | _ | _, _⟩ <;> simp

end Machine
end Sys2Proof

open Sys2Proof Sys2Proof.Machine

/-- Settles O19: the port decoder and the dispatch have no rejecting branch. -/
theorem everyOfferIsAnOperation : Obligations.EveryOfferIsAnOperation :=
  ⟨fun st idx p => ⟨decodeEvent st idx (selectEvent st p), rfl⟩,
    fun f => ⟨decodeFrame f, decodeList_bytes f, decodeFrame_format f⟩⟩

/-- Settles O20. -/
theorem decodedOperationsAreAccepted : Obligations.DecodedOperationsAreAccepted := by
  refine ⟨fun _ _ => decode_wf, ?pins, fun _ _ => decodeList_format,
    fun _ _ => decodeValidity_format⟩
  case pins =>
    intro st idx p i h
    cases h
    exact ⟨decodeEvent_selectEvent_accepted st idx p, decodeEvent_format st idx _⟩

/-- Settles O26. -/
theorem operationsOutsideTheirRowDoNothing : Obligations.OperationsOutsideTheirRowDoNothing := by
  refine ⟨fun _ _ => exec_unaccepted, ?idle, fun s _ => exec_illFormed s, ?long⟩
  case idle =>
    intro s e hst
    refine ⟨exec_unaccepted rfl ?_, exec_unaccepted rfl ?_, exec_unaccepted rfl ?_⟩ <;>
      simp [accepts, hst]
  case long =>
    intro s l hcue hlen
    have hfetch : s.fetch = .dispatch l := State.fetch_dispatch_iff.mpr hcue
    exact step_of_tooLong (by rw [hfetch, decode, decodeList_of_gt hlen])

/-- Settles O53: what is decoded is well formed and runs, and one rejection alone is refused. -/
theorem everyStateSteps : Obligations.EveryStateSteps := by
  intro s
  cases hdec : decode s.fetch with
  | ok i =>
    rw [step_of_decode hdec]
    exact .inl (exec_wf _ (decode_wf hdec))
  | error r =>
    cases r with
    | short => exact .inl ⟨s.advance.recordShort, by simp [step, hdec]⟩
    | notValid f => exact .inl ⟨s.advance.recordValidity f, by simp [step, hdec]⟩
    | tooLong =>
      obtain ⟨l, hfetch, hlen⟩ := decode_eq_tooLong hdec
      exact .inr ⟨step_of_tooLong hdec, l, State.fetch_dispatch_iff.mp hfetch, hlen⟩

/-- Settles O54: in `IDLE` the event is not accepted, in `BODY` before offset 2 its operation is `WAIT`. -/
theorem byteOutsideEveryRowIsAWait : Obligations.ByteOutsideEveryRowIsAWait := by
  refine ⟨fun s b hst => stepEvent_unaccepted (by simp [eventAccepted, hst]), ?_⟩
  intro s b hst hidx
  have hop : refineByte s.st s.idx b = .wait := by rw [hst, refineByte_body_wait b hidx]
  refine ⟨?_, ?_⟩
  · rw [stepEvent, decodeEvent, hop]
    exact exec_accepted rfl rfl
  · intro k hclk hoffer
    obtain ⟨hfetch, hadv⟩ := State.clocks_fetch hclk
    have hbusy : s.st ≠ .idle := by simp [hst]
    obtain ⟨hdec, htaken⟩ := decode_of_offersByte (idx := s.idx) hbusy hoffer
    rw [hop, ← hfetch] at hdec
    rw [step_of_decode hdec, hadv, State.streamAfter, if_pos htaken]
    exact exec_accepted rfl rfl

/-- Settles O17: the conditions of a line decide the branches of the lines before it. -/
theorem eventSelectionFollowsThePriority : Obligations.EventSelectionFollowsThePriority := by
  intro st p
  refine ⟨?reset, ?request, ?idle, ?cancel, ?ioerr, ?zero, ?byte, ?nothing⟩
  all_goals
    intros
    simp [selectEvent, *]

/-- Settles O18: an offered byte is decoded by R95, whose conditions exclude each other. -/
theorem byteOperationsAreTheirRows : Obligations.ByteOperationsAreTheirRows := by
  intro st idx p b hst hoffer
  rw [(decode_of_offersByte hst hoffer).1]
  simp only [Except.ok.injEq]
  cases st with
  | idle => exact absurd rfl hst
  | hunt =>
    by_cases hhead : b = 0xAA#8 <;> simp [refineByte, Config.head, hhead]
  | cmd =>
    by_cases hdata : b = 0xC0#8
    · simp [refineByte, Config.cmdData, hdata]
    · by_cases hstatus : b = 0xC5#8 <;>
        simp [refineByte, Config.cmdData, Config.cmdStatus, hdata, hstatus]
  | body =>
    obtain ⟨hwait, hlo, hcsum, htail⟩ | ⟨lo, hi, hcsum, htail⟩ | rfl | rfl := bodyIndex_cases idx
    · simp [refineByte_body_wait b hwait, hlo, hcsum, htail]
    · simp [refineByte_body_payload b lo hi, lo, hi, hcsum, htail]
    · simp [refineByte_body_csum]
    · simp [refineByte_body_tail]

/-- Settles O24. -/
theorem writtenWordsDecode : Obligations.WrittenWordsDecode :=
  ⟨rfl, rfl, rfl, rfl, rfl, rfl⟩

end

section
/-! SUPPORT. The transition table (R130), waits (R133), and the answers of the reader's operations where an
offered byte selects them (R132 to R141). -/

namespace Sys2Proof.Machine

/-- Lines 3 and 8 of R94: with nothing asserted the event is a wait in every state. -/
theorem selectEvent_quiet {st : FsmState} {p : Pins} (hrst : p.rst = false)
    (hreq : p.reqValid = false) (hcan : p.cancel = false) (hin : p.inValid = false) :
    selectEvent st p = .wait := by
  simp [selectEvent, hrst, hreq, hcan, hin]

/-- Line 8 of R94. -/
theorem selectEvent_busy_wait {st : FsmState} {p : Pins} (hst : st ≠ .idle) (hrst : p.rst = false)
    (hcan : p.cancel = false) (hin : p.inValid = false) : selectEvent st p = .wait := by
  simp [selectEvent, hst, hrst, hcan, hin]

/-- Line 2 of R94. -/
theorem selectEvent_idle_req {p : Pins} (hrst : p.rst = false) (hreq : p.reqValid = true) :
    selectEvent .idle p = .req p.reqBuflen := by
  simp [selectEvent, hrst, hreq]

/-- A clock step on which nothing is offered uses up its cue and nothing else. -/
theorem step_of_silentTick {s : State} {rest : List Cue}
    (h : s.agenda = .clock silentTick :: rest) :
    step s = .next { s with agenda := rest } := by
  have hin : (s.pins silentTick).inValid = false := s.pins_inValid_not_ready rfl
  have hwait : selectEvent s.st (s.pins silentTick) = .wait :=
    selectEvent_quiet (s.pins_rst _) (s.pins_reqValid _) (s.pins_cancel _) hin
  have hup : s.streamAfter silentTick = s.upstream := by
    simp [State.streamAfter, streamAccepted, hin]
  rw [step_of_clocks (.inl (by rw [h]; rfl)), hwait, hup, h]
  rfl

/-- An offered byte is decoded as its row, taken, and has the row's effect. -/
theorem byte_row {s : State} {st : FsmState} {p : Pins} {b : Byte} {i : Instr} (hst : s.st = st)
    (hb : st ≠ .idle) (h : offersByte p b) (hi : refineByte st s.idx b = i) :
    decode (.pins s.st s.idx p) = .ok i ∧ streamAccepted s.st p = true ∧
      exec i s = .next (effect s i) := by
  subst hst hi
  obtain ⟨hdec, htaken⟩ := decode_of_offersByte (idx := s.idx) hb h
  obtain ⟨hwf, hacc⟩ := refineByte_sound s.st s.idx b
  exact ⟨hdec, htaken, exec_accepted hwf hacc⟩

theorem refineByte_hunt (idx : Index) (b : Byte) :
    refineByte .hunt idx b = if b = 0xAA then .huntHead b else .huntSkip b := by
  simp [refineByte, Config.head]

theorem refineByte_cmd_reject (idx : Index) {b : Byte} (hdata : b ≠ 0xC0) (hstatus : b ≠ 0xC5) :
    refineByte .cmd idx b = .cmdReject b := by
  simp_all [refineByte, Config.cmdData, Config.cmdStatus]

/-- The offset after a stored body byte, which `idx` has room for before the tail (R139). -/
theorem State.storePayload_idx_val {s : State} (b : Byte) (h : s.idx.val < 9) :
    (s.storePayload b).idx.val = s.idx.val + 1 :=
  Fin.val_add_one_of_lt (Fin.lt_def.mpr h)

/-- Once locked, every operation that is accepted stays in `BODY` or ends the request (R136). -/
theorem effect_body_st {s : State} {i : Instr} (hst : s.st = .body)
    (ha : accepts s.st s.idx i = true) : (effect s i).st = .body ∨ (effect s i).st = .idle := by
  cases i
  case req | huntHead | huntSkip | cmdAcceptData | cmdAcceptStatus | cmdReject =>
    simp [accepts, hst] at ha
  case rst | cancel | ioerr | zero | bodyTail => exact .inr rfl
  all_goals exact .inl hst

end Sys2Proof.Machine

open Sys2Proof Sys2Proof.Machine

/-- Settles O48: the field laws of each operation's effect. -/
theorem transitionsFollowTheTable : Obligations.TransitionsFollowTheTable := by
  intro s t i hw ha h
  rw [exec_accepted hw ha] at h
  cases h
  cases i
  case req n =>
    have hst : s.st = .idle := by simpa [accepts] using ha
    rw [effect_req]
    refine ⟨fun hn => ?_, fun hn => ?_⟩
    · simp [tooShort_of_le hn]
    · simp [tooShort_of_lt hn, hst]
  case bodyPayload b =>
    obtain ⟨⟨hst, -⟩, hi⟩ : (s.st = .body ∧ Config.offPayLo ≤ s.idx) ∧ s.idx ≤ Config.offPayHi := by
      simpa [accepts] using ha
    exact ⟨hst, State.storePayload_idx_val b (Nat.lt_of_le_of_lt hi (by decide))⟩
  case bodyCsum b =>
    obtain ⟨hst, -⟩ : s.st = .body ∧ s.idx = Config.offCsum := by simpa [accepts] using ha
    exact ⟨hst, rfl⟩
  all_goals exact ⟨rfl, rfl⟩

/-- Settles O5: by induction on the number of silent steps. -/
theorem waitNeverChangesTheState : Obligations.WaitNeverChangesTheState := by
  refine ⟨fun s => exec_accepted rfl rfl, ?idle, ?busy, ?run⟩
  case idle =>
    intro idx p hrst hreq
    rw [decode, selectEvent_idle_wait hrst hreq]
    rfl
  case busy =>
    intro st idx p hst hrst hcan hin
    rw [decode, selectEvent_busy_wait hst hrst hcan hin]
    rfl
  case run =>
    intro k
    induction k with
    | zero =>
      rintro s rest rfl
      rfl
    | succ k ih =>
      intro s rest h
      rw [runSteps_succ_of_step (step_of_silentTick h)]
      exact ih _ rest rfl

/-- Settles O3. -/
theorem requestStartsHeadSearch : Obligations.RequestStartsHeadSearch := by
  refine ⟨?decoded, ?long, ?unaccepted, ?busy⟩
  case decoded =>
    intro idx p hrst hreq
    rw [decode, selectEvent_idle_req hrst hreq]
    exact ⟨rfl, streamAccepted_idle p⟩
  case long =>
    intro s n hst hn
    have hlong (m : Byte) (hm : 10 ≤ m.toNat) : exec (.req m) s = .next s.startRequest := by
      rw [exec_accepted rfl (by simp [accepts, hst]), effect_req, tooShort_of_le hm]
      rfl
    exact ⟨_, hlong n hn, hlong 10 le_rfl, rfl, rfl, rfl, rfl, rfl⟩
  case unaccepted =>
    intro s n hst
    exact exec_unaccepted rfl (by simp [accepts, hst])
  case busy =>
    intro st idx p hst hrst _ hcan hin
    rw [decode, selectEvent_busy_wait hst hrst hcan hin]
    rfl

/-- Settles O6. -/
theorem huntSkipDiscardsTheByte : Obligations.HuntSkipDiscardsTheByte := by
  intro s p b hst h hb
  exact byte_row hst nofun h (by rw [refineByte_hunt, if_neg hb])

/-- Settles O7. -/
theorem huntHeadStoresTheHead : Obligations.HuntHeadStoresTheHead := by
  intro s p hst h
  exact byte_row hst nofun h rfl

/-- Settles O8. -/
theorem commandIdLocks : Obligations.CommandIdLocks := by
  refine ⟨?locked, ?lock⟩
  case locked =>
    intro u v i hst h
    obtain ⟨-, ⟨ha, rfl⟩ | ⟨-, rfl⟩⟩ := exec_next_cases h
    · exact effect_body_st hst ha
    · exact .inl hst
  case lock =>
    intro s p hst
    exact ⟨fun h => byte_row hst nofun h rfl, fun h => byte_row hst nofun h rfl⟩

/-- Settles O9. -/
theorem otherByteAfterHeadResynchronizes : Obligations.OtherByteAfterHeadResynchronizes := by
  intro s p b hst h hdata hstatus
  obtain ⟨hdec, htaken, hexec⟩ := byte_row hst nofun h (refineByte_cmd_reject _ hdata hstatus)
  refine ⟨hdec, htaken, _, hexec, rfl, fun q c hq => ?_⟩
  rw [(decode_of_offersByte (by simp [effect]) hq).1, effect, State.resynchronize_st,
    refineByte_hunt]
  split <;> rfl

/-- Settles O10. -/
theorem payloadByteIsStoredAndSummed : Obligations.PayloadByteIsStoredAndSummed := by
  intro s p b hst lo hi h
  obtain ⟨hdec, htaken, hexec⟩ := byte_row hst nofun h (refineByte_body_payload b lo hi)
  exact ⟨hdec, htaken, _, hexec, fun k => Frame.get_set s.buf s.idx k b, BitVec.toNat_add _ _,
    State.storePayload_idx_val b (by omega), rfl⟩

/-- Settles O11. -/
theorem checksumByteIsStoredAndCompared : Obligations.ChecksumByteIsStoredAndCompared := by
  intro s p b hst hidx h
  exact byte_row hst nofun h (by rw [hidx, refineByte_body_csum])

/-- Settles O12. -/
theorem tailByteCompletesTheRequest : Obligations.TailByteCompletesTheRequest := by
  intro s p b hst hidx h
  obtain ⟨hdec, htaken, hexec⟩ := byte_row hst nofun h (by rw [hidx, refineByte_body_tail])
  have hok : (s.complete b).rstat = .ok := rfl
  refine ⟨hdec, htaken, s.complete b, hexec, rfl, ?_, streamAccepted_idle⟩
  simp [State.outputs, State.busy, State.done, State.gate_eq_true hok, State.response_of_ok hok,
    Response.ofFrame, subtypeTap, pm25Tap, pm10Tap, devIdTap, isCommandId, Config.head, Config.tail,
    Config.cmdData, Config.cmdStatus, beq_eq_decide, Frame.set]

/-- Settles O25. -/
theorem stepRunsTheDecodedOperation : Obligations.StepRunsTheDecodedOperation := by
  refine ⟨fun _ _ => step_of_decode, fun _ _ => State.clocks_fetch, ?decodeCall, ?checkCall⟩
  case decodeCall =>
    intro s l rest h
    simp [State.fetch, State.advance, h]
  case checkCall =>
    intro s w rest h
    simp [State.fetch, State.advance, h]

end

section
/-! SUPPORT. The reader's phases, and what one byte does in each (R130, R134 to R141). -/

namespace Sys2Proof.Machine

/-- The head search: in `HUNT`, or in `CMD` behind a stored head (R26). -/
inductive Searching : Bool → State → Prop
  | hunt {s : State} (hst : s.st = .hunt) (hidx : s.idx = 0) : Searching false s
  | cmd {s : State} (hst : s.st = .cmd) (hidx : s.idx = 1) (hhead : s.buf.head = Config.head) :
      Searching true s

/-- Locked, with the bytes `got` of the candidate stored (R26). -/
structure Collecting (got : List Byte) (s : State) : Prop where
  st : s.st = .body
  idx : 2 ≤ s.idx.val
  got : s.buf.bytes.take s.idx.val = got

theorem Searching.busy {h : Bool} {s : State} (hs : Searching h s) : s.st ≠ .idle := by
  cases hs <;> simp [*]

/-- While searching, `idx` counts the stored head (R25). -/
theorem Searching.idx_val {h : Bool} {s : State} (hs : Searching h s) : s.idx.val = h.toNat := by
  cases hs <;> simp [*]

theorem Collecting.busy {got : List Byte} {s : State} (hs : Collecting got s) : s.st ≠ .idle := by
  simp [hs.st]

/-- Once locked, `idx` counts the stored bytes (R25). -/
theorem Collecting.idx_val {got : List Byte} {s : State} (hs : Collecting got s) :
    s.idx.val = got.length := by
  rw [← hs.got, List.length_take, Frame.length_bytes]
  omega

theorem Collecting.length_lt {got : List Byte} {s : State} (hs : Collecting got s) :
    got.length < 10 :=
  hs.idx_val ▸ s.idx.isLt

/-- In `HUNT` the head is stored and any other byte is skipped (R134, R135). -/
theorem Searching.hunt_byte {s : State} (hs : Searching false s) (b : Byte) :
    Searching (b == Config.head) (effect s (refineByte s.st s.idx b)) := by
  obtain ⟨hst, hidx⟩ := hs
  rw [hst]
  cases hb : b == Config.head with
  | true => simpa [refineByte, hb, effect] using Searching.cmd rfl rfl (eq_of_beq hb)
  | false => simpa [refineByte, hb, effect] using Searching.hunt hst hidx

/-- In `CMD` a byte that is no commandId restarts the search (R138). -/
theorem Searching.cmd_reject {s : State} (hs : Searching true s) {b : Byte}
    (hb : isCommandId b = false) : Searching false (effect s (refineByte s.st s.idx b)) := by
  obtain ⟨hdata, hstatus⟩ : b ≠ 0xC0 ∧ b ≠ 0xC5 := not_or.mp fun h => by
    simp [isCommandId_iff.mpr h] at hb
  cases hs with
  | cmd hst =>
    rw [hst, refineByte_cmd_reject _ hdata hstatus]
    exact .hunt rfl rfl

/-- In `CMD` either commandId locks (R136, R137). -/
theorem Searching.cmd_lock {s : State} (hs : Searching true s) {b : Byte}
    (hb : isCommandId b = true) :
    Collecting [Config.head, b] (effect s (refineByte s.st s.idx b)) := by
  cases hs with
  | cmd hst _ hhead =>
    have hlock : effect s (refineByte s.st s.idx b) = s.lock b := by
      obtain rfl | rfl := isCommandId_iff.mp hb <;> rw [hst] <;> rfl
    rw [hlock, ← hhead]
    exact ⟨rfl, le_rfl, rfl⟩

/-- Storing the byte at offset `k` extends the stored bytes by it. -/
theorem take_bytes_set (f : Frame) (k : Index) (b : Byte) :
    (f.set k b).bytes.take (k.val + 1) = f.bytes.take k.val ++ [b] := by
  fin_cases k <;> rfl

/-- In `BODY` a byte before the tail's offset is stored behind the others (R139, R140). -/
theorem Collecting.byte {got : List Byte} {s : State} (hs : Collecting got s)
    (hlen : got.length < 9) (b : Byte) :
    Collecting (got ++ [b]) (effect s (refineByte s.st s.idx b)) := by
  have hidx : s.idx.val < 9 := hs.idx_val ▸ hlen
  obtain ⟨hst, hlo, rfl⟩ := hs
  rw [hst]
  by_cases hi : s.idx.val ≤ 7
  · have hsucc := State.storePayload_idx_val b hidx
    rw [refineByte_body_payload b hlo hi]
    exact ⟨hst, hlo.trans (by rw [effect, hsucc]; omega),
      by rw [effect, hsucc, State.storePayload_buf, take_bytes_set]⟩
  · have h8 : s.idx = 8 := Fin.ext (show s.idx.val = 8 by omega)
    rw [h8, refineByte_body_csum]
    exact ⟨hst, by simp [effect], take_bytes_set s.buf 8 b⟩

/-- In `BODY` the byte at the tail's offset completes the request (R141). -/
theorem Collecting.last_byte {got : List Byte} {s : State} (hs : Collecting got s)
    (hlen : got.length = 9) (b : Byte) :
    effect s (refineByte s.st s.idx b) = s.complete b ∧ (s.complete b).buf.bytes = got ++ [b] := by
  have hidx : s.idx = 9 := Fin.ext (hs.idx_val.trans hlen)
  constructor
  · rw [hs.st, hidx]
    rfl
  · rw [← hs.got, hidx]
    rfl

end Sys2Proof.Machine
end

section
/-! SUPPORT. Runs with a property before each step, and the invariant along a run. -/

namespace Sys2Proof.Machine

/-- `k` steps lead from `s` to `t`, and `P` holds before each of them. -/
structure RunsWhile (P : State → Prop) (k : Nat) (s t : State) : Prop where
  reaches : runSteps k s = .next t
  before : ∀ j, j < k → ∃ u, runSteps j s = .next u ∧ P u

theorem RunsWhile.refl (P : State → Prop) (s : State) : RunsWhile P 0 s s :=
  ⟨rfl, nofun⟩

theorem RunsWhile.head {P : State → Prop} {k : Nat} {s u t : State} (hs : P s)
    (hstep : step s = .next u) (h : RunsWhile P k u t) : RunsWhile P (k + 1) s t := by
  refine ⟨(runSteps_succ_of_step hstep).trans h.reaches, fun j hj => ?_⟩
  cases j with
  | zero => exact ⟨s, rfl, hs⟩
  | succ j =>
    rw [runSteps_succ_of_step hstep]
    exact h.before j (by omega)

theorem RunsWhile.trans {P : State → Prop} {j k : Nat} {s t u : State} (h : RunsWhile P j s t)
    (h' : RunsWhile P k t u) : RunsWhile P (j + k) s u := by
  refine ⟨(runSteps_add h.reaches).trans h'.reaches, fun i hi => ?_⟩
  by_cases hij : i < j
  · exact h.before i hij
  · obtain ⟨m, rfl⟩ := Nat.exists_eq_add_of_le (Nat.le_of_not_lt hij)
    rw [runSteps_add h.reaches]
    exact h'.before m (by omega)

theorem RunsWhile.mono {P Q : State → Prop} {k : Nat} {s t : State} (h : RunsWhile P k s t)
    (hPQ : ∀ u, P u → Q u) : RunsWhile Q k s t :=
  ⟨h.reaches, fun j hj => (h.before j hj).imp fun u hu => ⟨hu.1, hPQ u hu.2⟩⟩

/-- Behind its first step, a run that is busy until it ends. -/
theorem RunsWhile.busyUntil {k : Nat} {s u t : State} (hstep : step s = .next u)
    (h : RunsWhile (·.st ≠ .idle) k u t) : busyUntil (k + 1) s := by
  intro j hpos hj
  obtain ⟨i, rfl⟩ := Nat.exists_eq_succ_of_ne_zero hpos.ne'
  rw [runSteps_succ_of_step hstep]
  exact h.before i (by omega)

/-- Every step keeps the invariant, so a run does. -/
theorem runSteps_inv {k : Nat} {s t : State} (hs : s.Inv) (h : runSteps k s = .next t) : t.Inv := by
  induction k generalizing s with
  | zero =>
    cases h
    exact hs
  | succ k ih =>
    cases hstep : step s with
    | next u =>
      rw [runSteps_succ_of_step hstep] at h
      exact ih (stepKeepsTheInvariant s u hs hstep) h
    | fault r => cases r
    | refused r =>
      have e : Sys2Proof.core.step s = .refused r := hstep
      simp [runSteps, Host.Core.run, e] at h

/-- A result that says `RS_OK` comes with the full count, no error information, and the flags of the
returned bytes (R50 (5), (6)). -/
theorem State.Inv.result_ok {s : State} (hs : s.Inv) (hok : s.rstat = .ok) :
    s.cnt = 10 ∧ s.errinfo = 0 ∧ s.csOk = checksumValid s.buf ∧ s.tlOk = tailFlag s.buf.tail := by
  obtain ⟨-, -, hcnt, -, -, herr⟩ := hs.result
  obtain ⟨-, -, hcs, htl, -⟩ := hs.candidate hok
  exact ⟨hcnt.mp hok, by simpa [hok] using herr, hcs, htl⟩

end Sys2Proof.Machine
end

section
/-! SUPPORT. The machine performs the source's procedure (R142): by induction on what arrives, one step for
each arrival. -/

namespace Sys2Proof.Machine

theorem Searching.of_sameRegisters {h : Bool} {s v : State} (hs : Searching h s)
    (hv : sameRegisters v s) : Searching h v := by
  obtain ⟨hst, hidx, hbuf, -⟩ := hv
  cases hs with
  | hunt h1 h2 => exact .hunt (hst.trans h1) (hidx.trans h2)
  | cmd h1 h2 h3 => exact .cmd (hst.trans h1) (hidx.trans h2) (hbuf ▸ h3)

theorem Collecting.of_sameRegisters {got : List Byte} {s v : State} (hs : Collecting got s)
    (hv : sameRegisters v s) : Collecting got v := by
  obtain ⟨hst, hidx, hbuf, -⟩ := hv
  exact ⟨hst.trans hs.st, hidx ▸ hs.idx, hidx ▸ hbuf ▸ hs.got⟩

/-- No reset is coming, and the coming clock steps bring these arrivals. -/
def State.receives (s : State) (as : List Arrival) : Prop :=
  ∃ ts : List Tick, (∀ t ∈ ts, t.rst = false) ∧ s.agenda = ts.map .clock ∧
    arrivals ts s.upstream = as

theorem State.receives.upstream {s : State} {as : List Arrival} (h : s.receives as) :
    s.upstream = unread as := by
  obtain ⟨ts, -, -, rfl⟩ := h
  simp

/-- No operation changes what arrives. -/
theorem receives_effect {s : State} {as : List Arrival} (h : s.receives as) (i : Instr) :
    (effect s i).receives as := by
  simpa [State.receives] using h

/-- A busy step is the operation of the arrival that comes first, on the registers as they are. -/
theorem State.receives.step_next {s : State} {a : Arrival} {as : List Arrival}
    (h : s.receives (a :: as)) (hb : s.st ≠ .idle) :
    ∃ v, sameRegisters v s ∧ v.receives as ∧
      step s = .next (effect v (decodeEvent v.st v.idx a.toEvent)) := by
  obtain ⟨ts, hr, hag, harr⟩ := h
  exact ⟨{ s with agenda := ts.tail.map .clock, upstream := unread as }, by simp [sameRegisters],
    ⟨ts.tail, fun t ht => hr t (List.mem_of_mem_tail ht), rfl, (arrivals_cons harr).1⟩,
    step_arrival hb hr hag harr⟩

/-- With nothing left to arrive a busy block stays as it is. -/
theorem State.receives.blocked {s : State} (h : s.receives []) (hb : s.st ≠ .idle) (j : Nat) :
    runSteps j s = .next s := by
  obtain ⟨ts, -, hag, harr⟩ := h
  induction j with
  | zero => rfl
  | succ j ih => rw [runSteps_succ_of_step (step_no_arrival hb hag harr), ih]

/-- From `s` the request ends in an idle state with `Q`, with `rest` of the arrivals `as` left and one busy
step for each of the others. -/
def EndsWith (s : State) (as rest : List Arrival) (Q : State → Prop) : Prop :=
  ∃ k t, k + rest.length = as.length ∧ RunsWhile (·.st ≠ .idle) k s t ∧ t.st = .idle ∧
    t.upstream = unread rest ∧ Q t

/-- From `s` the block brings the procedure's outcome about on the arrivals `as` (R142). -/
def Performs (s : State) (as : List Arrival) : ReadOutcome → Prop
  | .blocked => ∀ j, ∃ u, runSteps j s = .next u ∧ u.st ≠ .idle
  | .failed status count info rest =>
      EndsWith s as rest fun t => t.rstat = status ∧ t.cnt.val = count ∧ t.errinfo = info
  | .returned f rest => EndsWith s as rest fun t => t.rstat = .ok ∧ t.buf = f

theorem EndsWith.head {s u : State} {a : Arrival} {as rest : List Arrival} {Q : State → Prop}
    (hb : s.st ≠ .idle) (hstep : step s = .next u) (h : EndsWith u as rest Q) :
    EndsWith s (a :: as) rest Q := by
  obtain ⟨k, t, hk, hrun, hend⟩ := h
  exact ⟨k + 1, t, by rw [List.length_cons, ← hk, Nat.add_right_comm], hrun.head hb hstep, hend⟩

/-- The first arrival takes one step, the others take the rest. -/
theorem Performs.head {s u : State} {a : Arrival} {as : List Arrival} {o : ReadOutcome}
    (hb : s.st ≠ .idle) (hstep : step s = .next u) (h : Performs u as o) :
    Performs s (a :: as) o := by
  cases o with
  | blocked =>
    intro j
    cases j with
    | zero => exact ⟨s, rfl, hb⟩
    | succ j => simpa [runSteps_succ_of_step hstep] using h j
  | failed => exact EndsWith.head hb hstep h
  | returned => exact EndsWith.head hb hstep h

theorem EndsWith.here {t : State} {as : List Arrival} {Q : State → Prop} (hst : t.st = .idle)
    (hup : t.upstream = unread as) (hQ : Q t) : EndsWith t as as Q :=
  ⟨0, t, Nat.zero_add _, .refl _ t, hst, hup, hQ⟩

/-- A fault counts the bytes stored so far (R228). -/
theorem performs_raise {v : State} {as : List Arrival} {n : Nat} (hv : v.receives as)
    (hn : v.idx.val = n) (status : RStat) (info : Byte) :
    Performs (v.raise status info) as (.failed status n info as) :=
  EndsWith.here rfl hv.upstream ⟨rfl, hn, rfl⟩

/-- A locked request performs the procedure's last loop. -/
theorem Collecting.performs {got : List Byte} {s : State} {as : List Arrival} {todo : Nat}
    (hs : Collecting got s) (h : s.receives as) (htodo : got.length + (todo + 1) = 10) :
    Performs s as (readBody got (todo + 1) as) := by
  have hb := hs.busy
  induction as generalizing s got todo with
  | nil => exact fun j => ⟨s, h.blocked hb j, hb⟩
  | cons a as ih =>
    obtain ⟨v, hreg, hv, hstep⟩ := h.step_next hb
    have hcol := hs.of_sameRegisters hreg
    refine .head hb hstep ?_
    cases a with
    | nothing => exact ih hcol hv htodo hcol.busy
    | cancel => exact performs_raise hv hcol.idx_val .canceled 0
    | event o =>
      rw [readBody, Arrival.toEvent]
      split
      · exact performs_raise hv hcol.idx_val .ioError o.errinfo
      · split
        · exact performs_raise hv hcol.idx_val .portReadError 0
        · cases todo with
          | zero =>
            obtain ⟨hop, hbytes⟩ := hcol.last_byte (by omega) o.data
            rw [readBody, ← hbytes, Frame.ofBytes_bytes, decodeEvent, hop]
            exact EndsWith.here rfl hv.upstream ⟨rfl, rfl⟩
          | succ todo =>
            have hnext := hcol.byte (by omega) o.data
            exact ih hnext (receives_effect hv _) (by simp; omega) hnext.busy

/-- A head search performs the procedure's outer loop. -/
theorem Searching.performs {h : Bool} {s : State} {as : List Arrival} (hs : Searching h s)
    (hr : s.receives as) : Performs s as (readHeader h as) := by
  have hb := hs.busy
  induction as generalizing s h with
  | nil => exact fun j => ⟨s, hr.blocked hb j, hb⟩
  | cons a as ih =>
    obtain ⟨v, hreg, hv, hstep⟩ := hr.step_next hb
    have hsearch := hs.of_sameRegisters hreg
    refine .head hb hstep ?_
    cases a with
    | nothing => exact ih hsearch hv hsearch.busy
    | cancel => exact performs_raise hv hsearch.idx_val .canceled 0
    | event o =>
      rw [readHeader, Arrival.toEvent]
      split
      · exact performs_raise hv hsearch.idx_val .ioError o.errinfo
      · split
        · exact performs_raise hv hsearch.idx_val .portReadError 0
        · cases h with
          | false =>
            have hnext := hsearch.hunt_byte o.data
            exact ih hnext (receives_effect hv _) hnext.busy
          | true =>
            rw [if_pos rfl]
            split
            next hid => exact (hsearch.cmd_lock hid).performs (receives_effect hv _) rfl
            next hid =>
              have hnext := hsearch.cmd_reject (Bool.not_eq_true _ ▸ hid)
              exact ih hnext (receives_effect hv _) hnext.busy

end Sys2Proof.Machine
end

section
/-! SUPPORT. The step that takes the request, and the run behind it (R132, R142, R212). -/

namespace Sys2Proof.Machine

/-- The first step of a request is `REQ`, and takes nothing from the stream (R132, R212). -/
theorem State.requests.step_eq {s : State} {r : Tick} {ts : List Tick} (h : s.requests r ts) :
    step s = .next (effect { s with agenda := ts.map .clock } (.req r.reqBuflen)) := by
  obtain ⟨hst, hag, hrst, hreq, -⟩ := h
  have hclk : s.clocks r := .inl (by rw [hag]; rfl)
  have hsel : selectEvent s.st (s.pins r) = .req r.reqBuflen := by
    rw [hst, selectEvent_idle_req (by simpa using hrst) (by simpa using hreq), State.pins_reqBuflen]
  rw [step_of_clocks hclk, hsel, State.streamAfter_idle r hst, hag]
  rfl

/-- A request too short ends on its own step. -/
theorem State.requests.step_short {s : State} {r : Tick} {ts : List Tick} (h : s.requests r ts)
    (hn : tooShort r.reqBuflen = true) :
    step s = .next { s with agenda := ts.map .clock }.rejectRequest := by
  rw [h.step_eq, effect_req, if_pos hn]

/-- Any other request starts a head search. -/
theorem State.requests.step_long {s : State} {r : Tick} {ts : List Tick} (h : s.requests r ts)
    (hn : tooShort r.reqBuflen = false) :
    step s = .next { s with agenda := ts.map .clock }.startRequest := by
  rw [h.step_eq, effect_req, if_neg (by simp [hn])]

theorem searching_startRequest (s : State) : Searching false s.startRequest :=
  .hunt rfl rfl

/-- The run from the step before `u`: the request's own step counts one more. -/
theorem EndsWith.run_from {s u : State} {as rest : List Arrival} {Q : State → Prop}
    (hstep : step s = .next u) (h : EndsWith u as rest Q) :
    (∃ t, runSteps (as.length - rest.length + 1) s = .next t ∧ t.st = .idle ∧
      t.upstream = unread rest ∧ Q t ∧ (u.Inv → t.Inv)) ∧
    busyUntil (as.length - rest.length + 1) s := by
  obtain ⟨k, t, hk, hrun, hst, hup, hQ⟩ := h
  rw [← hk, Nat.add_sub_cancel]
  exact ⟨⟨t, (runSteps_succ_of_step hstep).trans hrun.reaches, hst, hup, hQ,
    fun hinv => runSteps_inv hinv hrun.reaches⟩, hrun.busyUntil hstep⟩

end Sys2Proof.Machine

open Sys2Proof Sys2Proof.Machine

/-- Settles O56: the request's own step, and then one step for each arrival the procedure reads. -/
theorem runPerformsReadFrame : Obligations.RunPerformsReadFrame := by
  intro s r ts h
  have ⟨hidle, _, _, _, hrst⟩ := h
  generalize has : arrivals ts s.upstream = as
  cases hn : tooShort r.reqBuflen with
  | true =>
    have hend : EndsWith { s with agenda := ts.map .clock }.rejectRequest as as
        fun t => t.rstat = .bufTooShort ∧ t.cnt.val = 0 ∧ t.errinfo = 0 :=
      .here hidle (by simp [← has]) ⟨rfl, rfl, rfl⟩
    obtain ⟨⟨t, hrun, hst, hup, ⟨hrs, hcnt, herr⟩, -⟩, hbusy⟩ := hend.run_from (h.step_short hn)
    rw [readFrame, if_pos hn]
    exact ⟨⟨t, hrun, hst, hrs, hcnt, herr, hup⟩, hbusy⟩
  | false =>
    have hstep := h.step_long hn
    have hp := (searching_startRequest { s with agenda := ts.map .clock }).performs
      ⟨ts, hrst, rfl, has⟩
    have hinv := State.startRequest_inv { s with agenda := ts.map .clock }
    rw [readFrame, if_neg (by simp [hn])]
    cases hread : readHeader false as with
    | blocked =>
      rw [hread] at hp
      intro j i hpos hi
      obtain ⟨i, rfl⟩ := Nat.exists_eq_succ_of_ne_zero hpos.ne'
      rw [runSteps_succ_of_step hstep]
      exact hp i
    | failed status count info rest =>
      rw [hread] at hp
      obtain ⟨⟨t, hrun, hst, hup, ⟨hrs, hcnt, herr⟩, -⟩, hbusy⟩ := EndsWith.run_from hstep hp
      exact ⟨⟨t, hrun, hst, hrs, hcnt, herr, hup⟩, hbusy⟩
    | returned f rest =>
      rw [hread] at hp
      obtain ⟨⟨t, hrun, hst, hup, ⟨hrs, hbuf⟩, ht⟩, hbusy⟩ := EndsWith.run_from hstep hp
      obtain ⟨hcnt, herr, -⟩ := (ht hinv).result_ok hrs
      exact ⟨⟨t, hrun, hst, hrs, hcnt, herr, hbuf, hup⟩, hbusy⟩

end

section
/-! SUPPORT. Bytes that reach the reader with waits in between, and what the scanning function of R143 says
of them (R144 to R147). -/

namespace Sys2Proof.Machine

/-- The coming clock steps neither reset nor cancel. -/
def State.undisturbed (s : State) : Prop :=
  ∃ ts : List Tick, s.agenda = ts.map .clock ∧ (∀ t ∈ ts, t.rst = false) ∧ uncanceled ts

/-- `t` is reached from `s` when `n` events of the stream are taken, with any waits that the agenda brings
in between and `P` before each step. -/
structure Takes (P : State → Prop) (n : Nat) (s t : State) : Prop where
  run : ∃ k, RunsWhile P k s t ∧ n ≤ k ∧ k + t.agenda.length ≤ n + s.agenda.length
  undisturbed : t.undisturbed
  upstream : t.upstream = s.upstream.drop n

theorem Takes.refl (P : State → Prop) {s : State} (h : s.undisturbed) : Takes P 0 s s :=
  ⟨⟨0, .refl P s, le_rfl, le_rfl⟩, h, rfl⟩

theorem Takes.trans {P : State → Prop} {m n : Nat} {s t u : State} (h : Takes P m s t)
    (h' : Takes P n t u) : Takes P (m + n) s u := by
  obtain ⟨j, hj, hmj, hjt⟩ := h.run
  obtain ⟨k, hk, hnk, hku⟩ := h'.run
  exact ⟨⟨j + k, hj.trans hk, by omega, by omega⟩, h'.undisturbed,
    by rw [h'.upstream, h.upstream, List.drop_drop]⟩

theorem Takes.mono {P Q : State → Prop} {n : Nat} {s t : State} (h : Takes P n s t)
    (hPQ : ∀ u, P u → Q u) : Takes Q n s t := by
  obtain ⟨k, hk, hbounds⟩ := h.run
  exact ⟨⟨k, hk.mono hPQ, hbounds⟩, h.undisturbed, h.upstream⟩

theorem Takes.upstream_eq {P : State → Prop} {s t : State} {bs : List Byte} {os : List Offer}
    (h : Takes P bs.length s t) (hup : s.upstream = offersOf bs ++ os) : t.upstream = os := by
  rw [h.upstream, hup, List.drop_left' (by simp)]

theorem Takes.inv {P : State → Prop} {n : Nat} {s t : State} (h : Takes P n s t) (hs : s.Inv) :
    t.Inv := by
  obtain ⟨k, hrun, -⟩ := h.run
  exact runSteps_inv hs hrun.reaches

/-- The byte that arrives on the coming step. -/
theorem takes_byte_of_arrivals {P : State → Prop} {s : State} {ts : List Tick} {b : Byte}
    {as : List Arrival} (hb : s.st ≠ .idle) (hP : P s) (hag : s.agenda = ts.map .clock)
    (hrst : ∀ t ∈ ts, t.rst = false) (hcan : uncanceled ts)
    (harr : arrivals ts s.upstream = .event (Offer.ofByte b) :: as) :
    ∃ v, sameRegisters v s ∧ Takes P 1 s (effect v (refineByte v.st v.idx b)) := by
  have hup : s.upstream = Offer.ofByte b :: unread as := by
    rw [← unread_arrivals ts s.upstream, harr, unread_event]
  refine ⟨{ s with agenda := ts.tail.map .clock, upstream := unread as }, by simp [sameRegisters],
    ⟨1, (RunsWhile.refl P _).head hP (step_arrival hb hrst hag harr), le_rfl, by simp [hag]⟩,
    ⟨ts.tail, by simp, fun t ht => hrst t (List.mem_of_mem_tail ht),
      fun t ht => hcan t (List.mem_of_mem_tail ht)⟩, by simp [hup]⟩

/-- A step that brings nothing is a wait: the first cue is gone, nothing else. -/
theorem step_arrival_nothing {s : State} {t : Tick} {ts : List Tick} (hb : s.st ≠ .idle)
    (hag : s.agenda = (t :: ts).map .clock) (hrst : ∀ t' ∈ t :: ts, t'.rst = false)
    (hcan : t.cancel = false) (hready : t.streamReady = false) :
    step s = .next { s with agenda := ts.map .clock } := by
  have harr : arrivals (t :: ts) s.upstream = .nothing :: arrivals ts s.upstream := by
    simp [arrivals, hcan, hready]
  rw [step_arrival hb hrst hag harr, unread_arrivals]
  rfl

/-- The next byte arrives, after waits that change no register. -/
theorem takes_byte {P : State → Prop} {s : State} {b : Byte} {os : List Offer} (hb : s.st ≠ .idle)
    (hP : ∀ u, u.st = s.st → P u) (h : s.undisturbed) (hup : s.upstream = Offer.ofByte b :: os) :
    ∃ v, sameRegisters v s ∧ Takes P 1 s (effect v (refineByte v.st v.idx b)) := by
  obtain ⟨ts, hag, hrst, hcan⟩ := h
  induction ts generalizing s with
  | nil => exact takes_byte_of_arrivals hb (hP s rfl) hag hrst hcan (by rw [hup]; rfl)
  | cons t ts ih =>
    have ht : t.cancel = false := hcan t (List.mem_cons_self)
    cases hready : t.streamReady with
    | true =>
      exact takes_byte_of_arrivals hb (hP s rfl) hag hrst hcan
        (by rw [hup, arrivals, if_neg (by simp [ht]), if_pos hready])
    | false =>
      have hstep := step_arrival_nothing hb hag hrst ht hready
      obtain ⟨v, hv, htakes⟩ := ih (s := { s with agenda := ts.map .clock }) hb hP hup rfl
        (fun t' h' => hrst t' (List.mem_cons_of_mem t h'))
        (fun t' h' => hcan t' (List.mem_cons_of_mem t h'))
      obtain ⟨k, hk, hpos, hbound⟩ := htakes.run
      refine ⟨v, hv, ⟨k + 1, hk.head (hP s rfl) hstep, by omega, ?_⟩, htakes.undisturbed,
        htakes.upstream⟩
      simp [hag] at hbound ⊢
      omega

/-- The scan's answer in a search that has not locked (R143). -/
def ScanResult.ofSearch (h : Bool) : ScanResult := if h then .pending else .clean

theorem scanFrom_nil (h : Bool) (k : Nat) : scanFrom h k [] = .ofSearch h := rfl

theorem ScanResult.ofSearch_inj {h h' : Bool} (e : ofSearch h = ofSearch h') : h = h' := by
  cases h <;> cases h' <;> simp_all [ofSearch]

theorem ScanResult.ofSearch_ne_locked (h : Bool) (k : Nat) : ofSearch h ≠ .locked k := by
  cases h <;> exact nofun

/-- One byte of the scan: behind a head a commandId locks and no head is taken (R143). -/
theorem scanFrom_cons (h : Bool) (k : Nat) (b : Byte) (bs : List Byte) :
    scanFrom h k (b :: bs) =
      if h && isCommandId b then .locked k else scanFrom (!h && b == Config.head) (k + 1) bs := by
  cases h <;> simp [scanFrom]

/-- A byte of a scan that has not locked leaves a search, from which the scan goes on. -/
theorem scanFrom_cons_of_ofSearch {h h' : Bool} {k : Nat} {b : Byte} {bs : List Byte}
    (hscan : scanFrom h k (b :: bs) = .ofSearch h') :
    (h && isCommandId b) = false ∧
      scanFrom (!h && b == Config.head) (k + 1) bs = .ofSearch h' := by
  rw [scanFrom_cons] at hscan
  split at hscan
  · exact absurd hscan.symm (ScanResult.ofSearch_ne_locked h' k)
  · exact ⟨Bool.eq_false_iff.mpr ‹_›, hscan⟩

/-- The machine's search moves on a byte as the scan does (R134, R135, R138). -/
theorem Searching.byte {h : Bool} {s : State} {b : Byte} (hs : Searching h s)
    (hb : (h && isCommandId b) = false) :
    Searching (!h && b == Config.head) (effect s (refineByte s.st s.idx b)) := by
  cases h with
  | false => exact hs.hunt_byte b
  | true => exact hs.cmd_reject hb

/-- The machine's head search over bytes is the scan of them, where that has not locked. -/
theorem Searching.takes_scan {h h' : Bool} {k : Nat} {s : State} {bs : List Byte} {os : List Offer}
    (hs : Searching h s) (hu : s.undisturbed) (hup : s.upstream = offersOf bs ++ os)
    (hscan : scanFrom h k bs = .ofSearch h') :
    ∃ t, Takes (·.st ≠ .idle) bs.length s t ∧ Searching h' t := by
  induction bs generalizing h k s with
  | nil => exact ⟨s, .refl _ hu, ScanResult.ofSearch_inj ((scanFrom_nil h k).symm.trans hscan) ▸ hs⟩
  | cons b bs ih =>
    obtain ⟨v, hreg, htakes⟩ := takes_byte (P := (·.st ≠ .idle)) hs.busy
      (fun u hst => hst ▸ hs.busy) hu hup
    obtain ⟨hb, hrest⟩ := scanFrom_cons_of_ofSearch hscan
    obtain ⟨t, ht, hend⟩ := ih ((hs.of_sameRegisters hreg).byte hb) htakes.undisturbed
      (htakes.upstream_eq (bs := [b]) hup) hrest
    exact ⟨t, by simpa only [List.length_cons, Nat.add_comm] using htakes.trans ht, hend⟩

/-- Bytes whose scan has not locked leave a search, from which the scan goes on. -/
theorem scanFrom_append {h h' : Bool} {k : Nat} {bs : List Byte} (cs : List Byte)
    (hscan : scanFrom h k bs = .ofSearch h') :
    scanFrom h k (bs ++ cs) = scanFrom h' (k + bs.length) cs := by
  induction bs generalizing h k with
  | nil =>
    rw [ScanResult.ofSearch_inj ((scanFrom_nil h k).symm.trans hscan)]
    rfl
  | cons b bs ih =>
    obtain ⟨hb, hrest⟩ := scanFrom_cons_of_ofSearch hscan
    rw [List.cons_append, scanFrom_cons, hb, if_neg Bool.false_ne_true, ih hrest, List.length_cons,
      Nat.add_right_comm, Nat.add_assoc]

/-- A scan that locks has read clean bytes, a head and a commandId (R143). -/
theorem scanFrom_locked {k j : Nat} : ∀ {bs : List Byte}, scanFrom false k bs = .locked j →
    ∃ pre c post, bs = pre ++ Config.head :: c :: post ∧ isCommandId c = true ∧
      j = k + pre.length + 1 ∧ scanFrom false k pre = .ofSearch false
  | [], hscan => absurd hscan (ScanResult.ofSearch_ne_locked false j)
  | [b], hscan => absurd hscan (ScanResult.ofSearch_ne_locked (b == Config.head) j)
  | b :: c :: bs, hscan => by
    rw [scanFrom_cons] at hscan
    cases hhead : b == Config.head with
    | false =>
      obtain ⟨pre, c', post, hbs, hid, hj, hpre⟩ :=
        scanFrom_locked (k := k + 1) (bs := c :: bs) (by simpa [hhead] using hscan)
      exact ⟨b :: pre, c', post, by rw [hbs, List.cons_append], hid,
        by rw [hj, List.length_cons]; omega, by rw [scanFrom_cons, ← hpre]; simp [hhead]⟩
    | true =>
      cases hid : isCommandId c with
      | true =>
        refine ⟨[], c, bs, by rw [eq_of_beq hhead]; rfl, hid, ?_, rfl⟩
        simpa [hhead, scanFrom_cons, hid, eq_comm] using hscan
      | false =>
        obtain ⟨pre, c', post, hbs, hid', hj, hpre⟩ :=
          scanFrom_locked (k := k + 1 + 1) (bs := bs)
            (by simpa [hhead, scanFrom_cons, hid] using hscan)
        exact ⟨b :: c :: pre, c', post, by rw [hbs]; rfl, hid',
          by rw [hj, List.length_cons, List.length_cons]; omega,
          by rw [← hpre]; simp [scanFrom_cons, hhead, hid]⟩

/-- Once locked, the missing bytes complete the request (R147). -/
theorem Collecting.takes_rest {got bs : List Byte} {s : State} {os : List Offer}
    (hs : Collecting got s) (hu : s.undisturbed) (hup : s.upstream = offersOf bs ++ os)
    (hlen : got.length + bs.length = 10) :
    ∃ t, Takes (·.st = .body) bs.length s t ∧ t.st = .idle ∧ t.rstat = .ok ∧
      t.buf.bytes = got ++ bs := by
  induction bs generalizing got s with
  | nil => exact absurd hlen hs.length_lt.ne
  | cons b bs ih =>
    obtain ⟨v, hreg, htakes⟩ := takes_byte (P := (·.st = .body)) hs.busy
      (fun u hu => hu.trans hs.st) hu hup
    have hv := hs.of_sameRegisters hreg
    have hrest := htakes.upstream_eq (bs := [b]) hup
    rw [List.length_cons] at hlen
    cases bs with
    | nil =>
      obtain ⟨hop, hbytes⟩ := hv.last_byte (by simpa using hlen) b
      rw [hop] at htakes
      exact ⟨_, htakes, rfl, rfl, hbytes⟩
    | cons c bs =>
      have hnext := hv.byte (by simp at hlen; omega) b
      obtain ⟨t, ht, hst, hrs, hbytes⟩ := ih hnext htakes.undisturbed hrest
        (by rw [List.length_append, List.length_singleton, Nat.add_assoc, Nat.add_comm 1, hlen])
      exact ⟨t, by simpa only [List.length_cons, Nat.add_comm] using htakes.trans ht, hst, hrs,
        by simp [hbytes]⟩

end Sys2Proof.Machine
end

section
/-! SUPPORT. Requests on a stream of bytes: the machine behind clean noise, and the ten bytes it returns
from a head and a commandId on (R144 to R146). -/

namespace Sys2Proof.Machine

theorem frame_eq_of_bytes {f g : Frame} (h : f.bytes = g.bytes) : f = g :=
  Option.some.inj (by rw [← Frame.ofBytes_bytes, h, Frame.ofBytes_bytes])

/-- Ten bytes in a row are a frame. -/
theorem exists_frame_bytes_eq_take {l : List Byte} (h : 10 ≤ l.length) :
    ∃ f : Frame, f.bytes = l.take 10 := by
  cases hf : Frame.ofBytes (l.take 10) with
  | none => exact absurd (List.length_take_of_le h) (Frame.ofBytes_eq_none.mp hf)
  | some f => exact ⟨f, (Frame.ofBytes_eq_some.mp hf).symm⟩

/-- The step that takes a request leaves a head search in a sound state, the stream untouched. -/
theorem State.requests.searching {s : State} {r : Tick} {ts : List Tick} (h : s.requests r ts)
    (hcan : uncanceled ts) (hn : 10 ≤ r.reqBuflen.toNat) :
    ∃ u, step s = .next u ∧ u.Inv ∧ Searching false u ∧ u.undisturbed ∧
      u.agenda.length = ts.length ∧ u.upstream = s.upstream := by
  have ⟨_, _, _, _, hrst⟩ := h
  exact ⟨_, h.step_long (tooShort_of_le hn), State.startRequest_inv _, searching_startRequest _,
    ⟨ts, by simp, hrst, hcan⟩, by simp, by simp⟩

/-- A request and the bytes behind it, counted together: one step more than bytes and waits. -/
theorem Takes.run_from {n m : Nat} {s u t : State} (hstep : step s = .next u)
    (hlen : u.agenda.length = m) (h : Takes (·.st ≠ .idle) n u t) :
    ∃ k, runSteps k s = .next t ∧ busyUntil k s ∧ n + 1 ≤ k ∧ k ≤ n + 1 + m := by
  obtain ⟨k, hrun, hlo, hhi⟩ := h.run
  exact ⟨k + 1, (runSteps_succ_of_step hstep).trans hrun.reaches, hrun.busyUntil hstep,
    by omega, by omega⟩

/-- Behind clean noise the search locks on ten bytes that begin with a head and a commandId. -/
theorem Searching.takes_frame {s : State} {noise : List Byte} {f : Frame} {os : List Offer}
    (hs : Searching false s) (hu : s.undisturbed)
    (hup : s.upstream = offersOf (noise ++ f.bytes) ++ os) (hscan : scan noise = .clean)
    (hhead : f.head = Config.head) (hcmd : isCommandId f.cmd = true) :
    ∃ t, Takes (·.st ≠ .idle) (noise.length + 10) s t ∧ t.st = .idle ∧ t.rstat = .ok ∧
      t.buf = f := by
  obtain ⟨rest, hbytes, hlen⟩ : ∃ rest, f.bytes = f.head :: f.cmd :: rest ∧ rest.length = 8 :=
    ⟨_, rfl, rfl⟩
  have hpending : scanFrom false 0 (noise ++ [f.head]) = .ofSearch true := by
    rw [scanFrom_append (h' := false) _ hscan, hhead]
    rfl
  have hup₁ : s.upstream = offersOf (noise ++ [f.head]) ++ (offersOf (f.cmd :: rest) ++ os) := by
    rw [hup, hbytes]
    simp
  obtain ⟨u, htake₁, hu₁⟩ := hs.takes_scan hu hup₁ hpending
  have hup₂ := htake₁.upstream_eq hup₁
  obtain ⟨v, hreg, htake₂⟩ := takes_byte (P := (·.st ≠ .idle)) hu₁.busy (fun w hw => hw ▸ hu₁.busy)
    htake₁.undisturbed hup₂
  have hlock := (hu₁.of_sameRegisters hreg).cmd_lock hcmd
  have hup₃ := htake₂.upstream_eq (bs := [f.cmd]) hup₂
  obtain ⟨t, htake₃, hst, hok, hbuf⟩ := hlock.takes_rest htake₂.undisturbed hup₃ (by simp [hlen])
  have hbusy : Takes (·.st ≠ .idle) rest.length _ t := htake₃.mono fun w hw => by simp [hw]
  refine ⟨t, by simpa [hlen] using (htake₁.trans htake₂).trans hbusy, hst, hok, ?_⟩
  exact frame_eq_of_bytes (by rw [hbuf, hbytes, hhead]; rfl)

/-- The whole request on such a stream, with the flags its bytes give (R141, R144, R146). -/
theorem State.requests.returns_frame {s : State} {r : Tick} {ts : List Tick} {noise : List Byte}
    {f : Frame} {os : List Offer} (h : s.requests r ts) (hcan : uncanceled ts)
    (hn : 10 ≤ r.reqBuflen.toNat) (hup : s.upstream = offersOf (noise ++ f.bytes) ++ os)
    (hscan : scan noise = .clean) (hhead : f.head = Config.head) (hcmd : isCommandId f.cmd = true) :
    ∃ k t, runSteps k s = .next t ∧ busyUntil k s ∧ noise.length + 11 ≤ k ∧
      k ≤ noise.length + 11 + ts.length ∧ t.st = .idle ∧ t.rstat = .ok ∧ t.cnt = 10 ∧ t.buf = f ∧
      t.csOk = checksumValid f ∧ t.tlOk = tailFlag f.tail ∧ t.upstream = os := by
  obtain ⟨u, hstep, hinv, hsearch, hu, hlen, hupu⟩ := h.searching hcan hn
  have hup' := hupu.trans hup
  obtain ⟨t, htake, hst, hok, rfl⟩ := hsearch.takes_frame hu hup' hscan hhead hcmd
  obtain ⟨k, hrun, hbusy, hlo, hhi⟩ := htake.run_from hstep hlen
  obtain ⟨hcnt, -, hcs, htl⟩ := (htake.inv hinv).result_ok hok
  exact ⟨k, t, hrun, hbusy, hlo, hhi, hst, hok, hcnt, rfl, hcs, htl,
    Takes.upstream_eq (bs := noise ++ t.buf.bytes) (by simpa using htake) hup'⟩

/-- The conjunction of R166. -/
theorem isValid_iff {f : Frame} :
    isValid f = true ↔
      f.head = Config.head ∧ f.tail = Config.tail ∧ isCommandId f.cmd = true ∧
        checksumValid f = true := by
  simp [isValid, and_assoc]

end Sys2Proof.Machine

open Sys2Proof Sys2Proof.Machine

/-- Settles O57. -/
theorem cleanNoiseThenFrameIsReturned : Obligations.CleanNoiseThenFrameIsReturned := by
  intro s r ts noise f rest h hcan hn hup hscan hvalid
  obtain ⟨hhead, htail, hcmd, hcsum⟩ := isValid_iff.mp hvalid
  obtain ⟨k, t, hrun, hbusy, hlo, hhi, hst, hok, hcnt, rfl, hcs, htl, hrest⟩ :=
    h.returns_frame hcan hn hup hscan hhead hcmd
  refine ⟨k, t, hrun, hbusy, hlo, hhi, hst, hok, hcnt, rfl, hcs.trans hcsum, ?_, ?_, hrest⟩
  · rw [htl, htail]
    rfl
  · simp [State.outputs, State.gate_eq_true hok, hvalid]

/-- Settles O58: the scan goes on over the frame's head and commandId, and is clean behind them. -/
theorem pendingHeadLosesTheFrame : Obligations.PendingHeadLosesTheFrame := by
  intro s r ts noise f rest h hcan hn hup hscan hvalid
  obtain ⟨hhead, -, hcmd, -⟩ := isValid_iff.mp hvalid
  have hclean : scanFrom false 0 (noise ++ [f.head, f.cmd]) = .ofSearch false := by
    rw [scanFrom_append (h' := true) _ hscan, hhead]
    obtain hc | hc := isCommandId_iff.mp hcmd <;> rw [hc] <;> rfl
  obtain ⟨u, hstep, hinv, hsearch, hu, hlen, hupu⟩ := h.searching hcan hn
  have hup' : u.upstream =
      offersOf (noise ++ [f.head, f.cmd]) ++ (offersOf (f.bytes.drop 2) ++ rest) := by
    rw [hupu, hup]
    simp [Frame.bytes]
  obtain ⟨t, htake, ht⟩ := hsearch.takes_scan hu hup' hclean
  obtain ⟨k, hrun, hbusy, hlo, hhi⟩ := htake.run_from hstep hlen
  obtain ⟨hrs, -⟩ := (htake.inv hinv).result_clear ht.busy
  rw [List.length_append] at hlo hhi
  cases ht with
  | hunt hst hidx =>
    exact ⟨k, t, hrun, hbusy, hlo, hhi, hst, hidx, hrs, htake.upstream_eq hup'⟩

/-- Settles O59: the bytes before the false head are clean noise, and ten bytes from it are a frame. -/
theorem falseLockReturnsTheTenBytes : Obligations.FalseLockReturnsTheTenBytes := by
  intro s r ts noise more k rest h hcan hn hup hscan hlen
  obtain ⟨pre, c, post, rfl, hid, rfl, hpre⟩ := scanFrom_locked hscan
  obtain ⟨cand, hcand⟩ : ∃ cand, cand = Config.head :: c :: (post ++ more) := ⟨_, rfl⟩
  have hall : pre ++ Config.head :: c :: post ++ more = pre ++ cand := by simp [hcand]
  rw [hall, List.length_append] at hlen
  rw [hall] at hup ⊢
  obtain ⟨g, hg⟩ := exists_frame_bytes_eq_take (l := cand) (by omega)
  obtain ⟨hhead, hcmd, -⟩ : g.head = Config.head ∧ g.cmd = c ∧ _ := by
    simpa [hcand, Frame.bytes] using hg
  have hup' : s.upstream = offersOf (pre ++ g.bytes) ++ (offersOf (cand.drop 10) ++ rest) := by
    rw [hup, ← List.append_assoc, ← List.map_append, List.append_assoc, hg, List.take_append_drop]
  obtain ⟨n, t, hrun, hbusy, hlo, hhi, hst, hok, hcnt, rfl, hcs, htl, hrest⟩ :=
    h.returns_frame hcan hn hup' hpre hhead (hcmd ▸ hid)
  refine ⟨n, t, hrun, hbusy, by omega, by omega, hst, hok, hcnt, ?_, hcs, ?_, ?_⟩
  · rw [hg]
    simp
  · rw [htl, tailFlag, Config.tail, beq_eq_decide]
  · rw [hrest]
    simp [Nat.add_assoc]

/-- Settles O60. -/
theorem lockedRequestEndsWithTheMissingBytes :
    Obligations.LockedRequestEndsWithTheMissingBytes := by
  intro s ts bs rest hst hidx hag hrst hcan hup hlen
  have hs : Collecting (s.buf.bytes.take s.idx.val) s := ⟨hst, hidx, rfl⟩
  obtain ⟨t, htake, hidle, hok, hbuf⟩ := hs.takes_rest ⟨ts, hag, hrst, hcan⟩ hup
    (by rw [← hs.idx_val, hlen]; omega)
  obtain ⟨k, hrun, hlo, hhi⟩ := htake.run
  rw [hag, List.length_map] at hhi
  exact ⟨k, t, hrun.reaches, hlo, by omega, hidle, hok, htake.upstream_eq hup, hbuf, hrun.before⟩

end

section
/-! SUPPORT. One byte changed: what the payload sum and the checks make of it (R160, R164, R166, R171,
R172). -/

namespace Sys2Proof

/-! ### One bit of a word flipped -/

/-- Flipping a clear bit adds its power of two. -/
theorem xor_twoPow_of_clear {w : Nat} {x : BitVec w} {j : Nat} (h : x.getLsbD j = false) :
    x ^^^ BitVec.twoPow w j = x + BitVec.twoPow w j := by
  have hand : x &&& BitVec.twoPow w j = 0#w := by rw [BitVec.and_twoPow, h]; rfl
  rw [BitVec.add_eq_or_of_and_eq_zero _ _ hand]
  refine BitVec.eq_of_getLsbD_eq fun i hi => ?_
  by_cases hij : j = i
  · subst hij
    simpa [hi] using h
  · simp [hij]

/-- Flipping a set bit takes its power of two away. -/
theorem xor_twoPow_of_set {w : Nat} {x : BitVec w} {j : Nat} (h : x.getLsbD j = true) :
    x ^^^ BitVec.twoPow w j = x - BitVec.twoPow w j := by
  have hj : j < w := BitVec.lt_of_getLsbD h
  have hclear : (x ^^^ BitVec.twoPow w j).getLsbD j = false := by simp [h, hj]
  have hback := xor_twoPow_of_clear hclear
  rw [BitVec.xor_assoc, BitVec.xor_self, BitVec.xor_zero] at hback
  rw [eq_sub_iff_add_eq, ← hback]

/-- A flipped bit is a change. -/
theorem xor_twoPow_ne {w : Nat} (x : BitVec w) {j : Nat} (hj : j < w) :
    x ^^^ BitVec.twoPow w j ≠ x := by
  intro h
  have hbit := congrArg (·.getLsbD j) h
  simp [hj] at hbit

namespace Machine

/-! ### The checksum -/

theorem unsummed_index {k : Index} (h : k.val < 2 ∨ 7 < k.val) :
    k = 0 ∨ k = 1 ∨ k = 8 ∨ k = 9 := by
  revert k
  decide

theorem outer_index {k : Index} (h : k.val ≤ 1 ∨ k.val = 9) : k = 0 ∨ k = 1 ∨ k = 9 := by
  revert k
  decide

/-- Bytes 0, 1, 8 and 9 are not summed (R160). -/
theorem checksum_set_unsummed (f : Frame) {k : Index} (b : Byte) (h : k.val < 2 ∨ 7 < k.val) :
    checksum (f.set k b) = checksum f := by
  obtain rfl | rfl | rfl | rfl := unsummed_index h <;> rfl

/-- A payload byte counts once in the checksum (R160). -/
theorem checksum_set_payload (f : Frame) {k : Index} (b : Byte) (lo : 2 ≤ k.val) (hi : k.val ≤ 7) :
    checksum (f.set k b) = checksum f + (b - f.get k) := by
  obtain rfl | rfl | rfl | rfl | rfl | rfl := payload_index lo hi <;>
    simp only [checksum, Frame.set, Frame.get] <;> abel

/-- Exchanging two payload bytes keeps the checksum (R172). -/
theorem checksum_swap (f : Frame) {j k : Index} (jlo : 2 ≤ j.val) (jhi : j.val ≤ 7)
    (klo : 2 ≤ k.val) (khi : k.val ≤ 7) :
    checksum ((f.set j (f.get k)).set k (f.get j)) = checksum f := by
  rw [checksum_set_payload _ _ klo khi, checksum_set_payload _ _ jlo jhi, Frame.get_set]
  split
  next h => simp [h]
  next => abel

/-! ### The checks -/

theorem checksumValid_iff {f : Frame} : checksumValid f = true ↔ f.csum = checksum f :=
  beq_iff_eq

/-- `ChecksumValid` looks at the checksum byte and the payload sum alone (R164). -/
theorem checksumValid_congr {f g : Frame} (hcsum : f.csum = g.csum)
    (hsum : checksum f = checksum g) : checksumValid f = checksumValid g := by
  rw [checksumValid, checksumValid, hcsum, hsum]

/-- Equal integer sums modulo 256 are equal checksums (R160). -/
theorem checksum_eq_iff {f g : Frame} :
    checksum f = checksum g ↔ payloadSum f % 256 = payloadSum g % 256 := by
  rw [← BitVec.toNat_inj, checksum_toNat, checksum_toNat]

/-- A changed head, commandId or tail passes the checksum (R171). -/
theorem checksumValid_set_unchecked (f : Frame) {k : Index} (b : Byte) (h : k.val ≤ 1 ∨ k.val = 9) :
    checksumValid (f.set k b) = checksumValid f := by
  obtain rfl | rfl | rfl := outer_index h <;> rfl

/-- Any change of one byte from offset 2 to 8 is detected (R171). -/
theorem checksumValid_set_eq_false {f : Frame} {k : Index} {b : Byte} (hf : checksumValid f = true)
    (lo : 2 ≤ k.val) (hi : k.val ≤ 8) (hb : b ≠ f.get k) : checksumValid (f.set k b) = false := by
  rw [checksumValid_iff] at hf
  rw [← Bool.not_eq_true, checksumValid_iff]
  intro h
  by_cases h8 : k = 8
  · subst h8
    rw [checksum_set_csum, ← hf] at h
    exact hb h
  · have hi7 : k.val ≤ 7 := Nat.le_of_lt_succ (lt_of_le_of_ne hi fun e => h8 (Fin.ext e))
    rw [checksum_set_payload f b lo hi7, Frame.csum_set, if_neg (Ne.symm h8), hf] at h
    exact hb (sub_eq_zero.mp (left_eq_add.mp h))

/-- The two command IDs differ from each other in more than one bit. -/
theorem isCommandId_flip {b : Byte} {j : Nat} (hj : j < 8) (h : isCommandId b = true) :
    isCommandId (b ^^^ BitVec.twoPow 8 j) = false := by
  have hflip : ∀ j < 8, isCommandId (0xC0 ^^^ BitVec.twoPow 8 j) = false ∧
      isCommandId (0xC5 ^^^ BitVec.twoPow 8 j) = false := by decide
  obtain ⟨hdata, hstatus⟩ := hflip j hj
  obtain rfl | rfl := isCommandId_iff.mp h
  · exact hdata
  · exact hstatus

/-- A flipped bit of the head, the commandId or the tail makes the frame invalid (R171). -/
theorem isValid_flip_eq_false {f : Frame} {k : Index} {j : Nat} (hj : j < 8)
    (hf : isValid f = true) (hk : k.val ≤ 1 ∨ k.val = 9) : isValid (flipBit f k j) = false := by
  obtain ⟨hhead, htail, hcmd, -⟩ := isValid_iff.mp hf
  rw [← Bool.not_eq_true, isValid_iff]
  rintro ⟨hhead', htail', hcmd', -⟩
  obtain rfl | rfl | rfl := outer_index hk
  · exact xor_twoPow_ne f.head hj (hhead'.trans hhead.symm)
  · exact Bool.false_ne_true ((isCommandId_flip hj hcmd).symm.trans hcmd')
  · exact xor_twoPow_ne f.tail hj (htail'.trans htail.symm)

end Machine
end Sys2Proof

open Sys2Proof Sys2Proof.Machine

/-- Settles O27. -/
theorem checksumIsThePayloadSumModulo256 : Obligations.ChecksumIsThePayloadSumModulo256 := by
  refine ⟨fun s => ?_, fun f => ⟨checksum_toNat f, fun k b => checksum_set_unsummed f b⟩⟩
  simp [State.outputs, State.gate]

/-- Settles O31: a flipped bit changes its byte by a power of two. -/
theorem singleBitFlipIsDetected : Obligations.SingleBitFlipIsDetected := by
  intro f k j hj
  have hchange : f.get k ^^^ BitVec.twoPow 8 j ≠ f.get k := xor_twoPow_ne _ hj
  refine ⟨fun lo hi => ?_, fun hf lo hi => checksumValid_set_eq_false hf lo hi hchange,
    fun hf hk => (checksumValid_set_unchecked f _ hk).trans hf, isValid_flip_eq_false hj⟩
  rw [flipBit, checksum_set_payload f _ lo hi]
  cases hbit : (f.get k).getLsbD j with
  | false => exact .inl (by rw [xor_twoPow_of_clear hbit, add_sub_cancel_left])
  | true => exact .inr (by rw [xor_twoPow_of_set hbit]; abel)

/-- Settles O32. -/
theorem compensatingChangesAreUndetected : Obligations.CompensatingChangesAreUndetected := by
  refine ⟨fun f g hcsum hsum => checksumValid_congr hcsum (checksum_eq_iff.mpr hsum), ?_⟩
  intro f j k jlo jhi klo khi
  have hj : 8 ≠ j := by rintro rfl; exact absurd jhi (by decide)
  have hk : 8 ≠ k := by rintro rfl; exact absurd khi (by decide)
  exact checksumValid_congr (by simp [hj, hk]) (checksum_swap f jlo jhi klo khi)

/-- Settles O30. -/
theorem correctFrameIsValid : Obligations.CorrectFrameIsValid := by
  intro f hhead hcmd htail hcsum
  have hvalid : checksumValid f = true := checksumValid_iff.mpr hcsum
  exact ⟨hvalid, isValid_iff.mpr ⟨hhead, htail, isCommandId_iff.mpr hcmd, hvalid⟩⟩

end

section
/-! SUPPORT. The accumulator over a run of payload bytes (R139, R162). -/

namespace Sys2Proof.Machine

/-- In `BODY` payload bytes are summed one by one, and `idx` counts them (R139, R161). -/
theorem runEvents_payload {bs : List Byte} {s : State} (hst : s.st = .body) (lo : 2 ≤ s.idx.val)
    (hi : s.idx.val + bs.length ≤ 8) :
    ∃ t, runEvents (bs.map .byte) s = .next t ∧ t.st = .body ∧
      t.idx.val = s.idx.val + bs.length ∧ t.acc = s.acc + bs.sum := by
  induction bs generalizing s with
  | nil => exact ⟨s, rfl, hst, rfl, by simp⟩
  | cons b bs ih =>
    rw [List.length_cons] at hi ⊢
    have hstep : stepEvent s (.byte b) = .next (s.storePayload b) := by
      rw [stepEvent_accepted (by simp [eventAccepted, hst]), decodeEvent, hst,
        refineByte_body_payload b lo (by omega)]
      rfl
    have hidx := State.storePayload_idx_val b (s := s) (by omega)
    obtain ⟨t, hrun, htst, htidx, htacc⟩ :=
      ih (s := s.storePayload b) hst (by omega) (by omega)
    refine ⟨t, ?_, htst, by omega, ?_⟩
    · rw [List.map_cons, runEvents, hstep]
      exact hrun
    · rw [htacc, State.storePayload_acc, List.sum_cons, add_assoc]

theorem checksum_eq_sum (f : Frame) : checksum f = [f.p2, f.p3, f.p4, f.p5, f.p6, f.p7].sum := by
  simp [checksum, add_assoc]

end Sys2Proof.Machine

open Sys2Proof Sys2Proof.Machine

/-- Settles O33: the run sums its bytes, and a sum has no order. -/
theorem accumulatorReachesTheChecksum : Obligations.AccumulatorReachesTheChecksum := by
  intro s f g hst hidx hacc hperm
  obtain ⟨t, hrun, htst, htidx, htacc⟩ :=
    runEvents_payload (bs := [g.p2, g.p3, g.p4, g.p5, g.p6, g.p7]) hst (by simp [hidx])
      (by simp [hidx])
  refine ⟨t, hrun, htst, Fin.ext (by simpa [hidx] using htidx), ?_⟩
  rw [htacc, hacc, hperm.sum_eq, checksum_eq_sum]
  exact zero_add _

end

section
/-! SUPPORT. What the validity functions answer: at the ports under the invariant, by a validity row, and by
a call of the checks (R164 to R169). -/

namespace Sys2Proof.Machine

theorem isCommandId_eq_decide (b : Byte) : isCommandId b = decide (b = 0xC0 ∨ b = 0xC5) :=
  (Bool.decide_coe _).symm.trans (decide_eq_decide.mpr isCommandId_iff)

theorem dataIsValid_iff {f : Frame} : dataIsValid f = true ↔ isValid f = true ∧ f.cmd = 0xC0 := by
  simp [dataIsValid, Config.cmdData]

/-- On a candidate the registered flags decide the frame's validity (R169). -/
theorem State.Inv.isValid_buf {s : State} (hs : s.Inv) (hok : s.rstat = .ok) :
    isValid s.buf = (s.csOk && s.tlOk) := by
  obtain ⟨hhead, hcmd, hcs, htl, -⟩ := hs.candidate hok
  have hid : isCommandId s.buf.cmd = true := isCommandId_iff.mpr hcmd
  rw [isValid, hhead, hid, hcs, htl]
  simp [Bool.and_comm]

/-- The answer on ten bytes in the spec's values (R160, R164, R166, R167). -/
theorem Validity.ofFrame_eq (f : Frame) :
    Validity.ofFrame f =
      { csCalc := checksum f, csumValid := checksumValid f
        tailValid := decide (f.tail = 0xAB), headOk := decide (f.head = 0xAA)
        cmdOk := decide (f.cmd = 0xC0 ∨ f.cmd = 0xC5), frameValid := isValid f
        dataValid := dataIsValid f } := by
  simp [Validity.ofFrame, tailFlag, Config.tail, Config.head, beq_eq_decide, isCommandId_eq_decide]

/-- The answer on a valid frame: every check passes, the data check by the commandId (R166, R167). -/
theorem Validity.ofFrame_of_isValid {f : Frame} (h : isValid f = true) :
    Validity.ofFrame f =
      { csCalc := f.csum, csumValid := true, tailValid := true, headOk := true
        cmdOk := true, frameValid := true, dataValid := f.cmd == 0xC0 } := by
  obtain ⟨hhead, htail, hcmd, hcsum⟩ := isValid_iff.mp h
  simp [Validity.ofFrame, dataIsValid, tailFlag, h, hhead, htail, hcmd, hcsum,
    checksumValid_iff.mp hcsum, Config.cmdData]

/-- Whichever row a frame word is decoded as, or none, its step answers the checks on its bytes. -/
theorem step_of_validity {s : State} {w : FrameWord} (h : s.fetch = .validity w) :
    step s = .next (s.advance.recordValidity (Frame.ofWord w)) := by
  have hdec : decode s.fetch = decodeValidity w := by rw [h]; rfl
  rw [decodeValidity_eq] at hdec
  split at hdec
  next hw => rw [step_of_decode hdec, exec_accepted hw rfl, effect]
  next =>
    split at hdec
    next hw => rw [step_of_decode hdec, exec_accepted hw rfl, effect]
    next => simp [step, hdec]

end Sys2Proof.Machine

open Sys2Proof Sys2Proof.Machine

/-- Settles O29. -/
theorem checkCallAnswersOnAnyTenBytes : Obligations.CheckCallAnswersOnAnyTenBytes := by
  intro s f rest hcue
  have hfetch : s.fetch = .validity f.toWord := by simp [State.fetch, hcue]
  have hadv : s.advance = { s with agenda := rest } := by simp [State.advance, hcue]
  rw [step_of_validity hfetch, hadv, Frame.ofWord_toWord, State.recordValidity, Validity.ofFrame_eq]

/-- Settles O44. -/
theorem registeredAndPureChecksAgree : Obligations.RegisteredAndPureChecksAgree := by
  intro s hs hok
  obtain ⟨hhead, hcmd, hcs, htl, hacc⟩ := hs.candidate hok
  obtain ⟨hcsPort, htlPort, hheadPort, hcmdPort, hvalid, hdata, -, hcalc, -⟩ :=
    frameOutputsUnderTheGate s hok
  refine ⟨hcs, htl.trans (beq_eq_decide _ _), hacc, hcalc.trans hacc.symm, hcsPort, htlPort,
    hheadPort.mpr hhead, hcmdPort.mpr hcmd, hvalid.trans (hs.isValid_buf hok), ?_⟩
  rw [hdata, dataIsValid, hs.isValid_buf hok, beq_eq_decide]
  rfl

/-- Settles O28. -/
theorem validityRowsAnswerTheChecks : Obligations.ValidityRowsAnswerTheChecks := by
  refine ⟨?ports, ?data, ?status, ?functions⟩
  case ports =>
    intro s
    simp [State.outputs, State.gate]
  case data =>
    intro s f hhead hcmd htail hcsum
    obtain ⟨-, hvalid⟩ := correctFrameIsValid f hhead (.inl hcmd) htail hcsum
    rw [exec_accepted (validData_wf hvalid hcmd) rfl, effect, State.recordValidity,
      Validity.ofFrame_of_isValid hvalid, hcmd]
    rfl
  case status =>
    intro s f hhead hcmd htail hcsum
    obtain ⟨-, hvalid⟩ := correctFrameIsValid f hhead (.inr hcmd) htail hcsum
    rw [exec_accepted (validStatus_wf hvalid (by rw [hcmd]; decide)) rfl, effect,
      State.recordValidity, Validity.ofFrame_of_isValid hvalid, hcmd]
    rfl
  case functions =>
    intro f
    refine ⟨checksumValid_iff, ?_, dataIsValid_iff⟩
    rw [isValid_iff, isCommandId_iff]
    rfl

end

section
/-! SUPPORT. What the Frame Decoder answers: on ten bytes by their dispatch row, on a byte list by its
length, and at the ports under the gate (R181 to R196). -/

namespace Sys2Proof.Machine

/-! ### The class (R182) -/

/-- The class is chosen by offsets 1 and 2 alone (R200). -/
theorem decode10_congr {f g : Frame} (hcmd : f.cmd = g.cmd) (hsub : f.p2 = g.p2) :
    decode10 f = decode10 g := by
  rw [decode10, decode10, hcmd, hsub]

/-- A data frame reads no subtype (R183). -/
theorem decode10_of_data {f : Frame} (h : f.cmd = Config.cmdData) : decode10 f = .data := by
  simp [decode10, h]

/-- The class of a status frame is that of its subtype (R184 to R189). -/
theorem decode10_of_status {f : Frame} (h : f.cmd = Config.cmdStatus) :
    decode10 f =
      if f.p2 = Config.subReportingMode then .reportingMode
      else if f.p2 = Config.subDeviceId then .notImplemented
      else if f.p2 = Config.subWorkingMode then .notImplemented
      else if f.p2 = Config.subFirmware then .notImplemented
      else if f.p2 = Config.subWorkingPeriod then .notImplemented
      else statusOtherClass := by
  simp [decode10, h, cmdStatus_ne_cmdData]

/-- Neither commandId (R190). -/
theorem decode10_of_other {f : Frame} (hdata : f.cmd ≠ Config.cmdData)
    (hstatus : f.cmd ≠ Config.cmdStatus) : decode10 f = .badType := by
  simp [decode10, hdata, hstatus]

/-- A status frame of none of the listed subtypes has the last status row and the open class (R189). -/
theorem decode_of_unlisted {f : Frame} (hcmd : f.cmd = Config.cmdStatus)
    (hreporting : f.p2 ≠ Config.subReportingMode) (hdevice : f.p2 ≠ Config.subDeviceId)
    (hmode : f.p2 ≠ Config.subWorkingMode) (hfirmware : f.p2 ≠ Config.subFirmware)
    (hperiod : f.p2 ≠ Config.subWorkingPeriod) :
    decodeFrame f = .decStatusOther f ∧ decode10 f = statusOtherClass := by
  simp [decodeFrame_of_status hcmd, decode10_of_status hcmd, *]

/-- The open class is a failure class whatever it is (R9, R199). -/
theorem statusOtherClass_ne_success :
    statusOtherClass ≠ .data ∧ statusOtherClass ≠ .reportingMode := by
  unfold statusOtherClass
  cases Config.statusOtherClass <;> exact ⟨nofun, nofun⟩

/-! ### The answer -/

/-- The dispatch and the classification split alike: the row of ten bytes answers `Decode10` of them. -/
theorem effect_decodeFrame (s : State) (f : Frame) :
    effect s (decodeFrame f) = s.recordResponse (decode10 f) f := by
  unfold decodeFrame decode10
  repeat' split
  all_goals rfl

/-- The decoder's calls are accepted in every state. -/
theorem accepts_decodeFrame (st : FsmState) (idx : Index) (f : Frame) :
    accepts st idx (decodeFrame f) = true := by
  unfold decodeFrame
  repeat' split
  all_goals rfl

theorem exec_decodeFrame (s : State) (f : Frame) :
    exec (decodeFrame f) s = .next (s.recordResponse (decode10 f) f) := by
  rw [exec_accepted (decodeFrame_wf f) (accepts_decodeFrame _ _ f), effect_decodeFrame]

/-- The row that ten bytes select, with the class they have, completes with that class and their taps. -/
theorem row_answers {f : Frame} {i : Instr} {c : DClass} (s : State) (hrow : decodeFrame f = i)
    (hclass : decode10 f = c) :
    decode10 f = c ∧ exec i s = .next { s with decoded := some (Response.ofFrame c f) } := by
  refine ⟨hclass, ?_⟩
  rw [← hrow, exec_decodeFrame, hclass, State.recordResponse]

/-- A call of `Decode` takes its cue and nothing else. -/
theorem State.advance_of_decode {s : State} {l : List Byte} {rest : List Cue}
    (h : s.agenda = .decode l :: rest) : s.advance = { s with agenda := rest } := by
  simp [State.advance, h]

/-- `Decode` of fewer than ten bytes (R181). -/
theorem step_of_short_list {s : State} {l : List Byte} (hcue : s.fetch = .dispatch l)
    (hlen : l.length < 10) : step s = .next s.advance.recordShort := by
  simp [step, hcue, decode, decodeList_of_lt hlen]

/-- `Decode` of ten bytes (R181). -/
theorem step_of_frame_list {s : State} {f : Frame} (hcue : s.fetch = .dispatch f.bytes) :
    step s = .next (s.advance.recordResponse (decode10 f) f) := by
  rw [step_of_decode (i := decodeFrame f) (by rw [hcue]; rfl), exec_decodeFrame]

/-! ### Two bytes as a word, one bit of a valid frame -/

/-- Two bytes side by side are a number with its low byte last (R97 to R99). -/
theorem append_toNat (hi lo : Byte) : (hi ++ lo).toNat = lo.toNat + 256 * hi.toNat := by
  rw [BitVec.toNat_append, ← Nat.shiftLeft_add_eq_or_of_lt lo.isLt, Nat.shiftLeft_eq]
  omega

/-- Every bit of every offset counts for the validity of a valid frame (R171, R200). -/
theorem isValid_flipBit_eq_false {f : Frame} (k : Index) {j : Nat} (hj : j < 8)
    (hf : isValid f = true) : isValid (flipBit f k j) = false := by
  by_cases hk : k.val ≤ 1 ∨ k.val = 9
  · exact isValid_flip_eq_false hj hf hk
  · obtain ⟨-, -, -, hcsum⟩ := isValid_iff.mp hf
    have hbad : checksumValid (flipBit f k j) = false :=
      checksumValid_set_eq_false hcsum (by omega) (by omega) (xor_twoPow_ne _ hj)
    rw [isValid, hbad, Bool.and_false]

end Sys2Proof.Machine

open Sys2Proof Sys2Proof.Machine

/-- Settles O36: a call takes its cue alone, and the length picks the answer. -/
theorem decodeCallAnswersByLength : Obligations.DecodeCallAnswersByLength := by
  refine ⟨?call, rfl, ?ports⟩
  case call =>
    intro s l rest hcue
    have hfetch : s.fetch = .dispatch l := by simp [State.fetch, hcue]
    refine ⟨fun hlen => ?_, ?_⟩
    · rw [step_of_short_list hfetch hlen, State.advance_of_decode hcue, State.recordShort]
    · rintro f rfl
      rw [step_of_frame_list hfetch, State.advance_of_decode hcue, State.recordResponse]
  case ports =>
    exact fun s => ⟨fun hok => congrArg Response.cls (State.response_of_ok hok),
      fun hok => congrArg Response.cls (State.response_of_not_ok hok)⟩

/-- Settles O37: a flipped bit at any offset makes a valid frame invalid, and one in the tail keeps the
class. -/
theorem classAndValidityAreIndependent : Obligations.ClassAndValidityAreIndependent := by
  obtain ⟨data, hdata, hdataValid⟩ : ∃ f, decode10 f = .data ∧ isValid f = true :=
    ⟨⟨0xAA, 0xC0, 0xD4, 0x04, 0x3A, 0x0A, 0xA1, 0x60, 0x1D, 0xAB⟩, decode10_of_data rfl, rfl⟩
  obtain ⟨status, hstatus, hstatusValid⟩ :
      ∃ f, decode10 f = .notImplemented ∧ isValid f = true :=
    ⟨⟨0xAA, 0xC5, 0x05, 0x00, 0x00, 0x00, 0xA1, 0x60, 0x06, 0xAB⟩, decode10_of_status rfl, rfl⟩
  have tailFlip (f : Frame) (hf : isValid f = true) :
      decode10 (flipBit f 9 0) = decode10 f ∧ isValid (flipBit f 9 0) = false :=
    ⟨decode10_congr rfl rfl, isValid_flipBit_eq_false 9 (by decide) hf⟩
  refine ⟨fun f g => decode10_congr, ?_, ⟨data, hdata, hdataValid⟩, ?_,
    ⟨status, hstatus, hstatusValid⟩, ?_⟩
  · exact fun k => ⟨data, _, hdataValid, isValid_flipBit_eq_false k (j := 0) (by decide) hdataValid⟩
  · obtain ⟨hclass, hinvalid⟩ := tailFlip data hdataValid
    exact ⟨_, hclass.trans hdata, hinvalid⟩
  · obtain ⟨hclass, hinvalid⟩ := tailFlip status hstatusValid
    exact ⟨_, hclass.trans hstatus, hinvalid⟩

/-- Settles O38: the gated taps are two bytes side by side, the low one last. -/
theorem tapsAreLittleEndianUnderTheGate : Obligations.TapsAreLittleEndianUnderTheGate := by
  intro s
  constructor
  · intro hok
    obtain ⟨-, -, -, -, -, -, -, -, hsub, hpm25, hpm10, hdev⟩ := frameOutputsUnderTheGate s hok
    rw [hpm25, hpm10, hdev]
    exact ⟨append_toNat _ _, append_toNat _ _, append_toNat _ _, hsub⟩
  · intro hok
    rw [gateHidesTheBuffer s hok]
    exact ⟨rfl, rfl, rfl, rfl⟩

/-- Settles O39. -/
theorem framePortPacksTheBuffer : Obligations.FramePortPacksTheBuffer := by
  intro s
  constructor
  · intro hok k j hj
    obtain ⟨-, -, -, -, -, -, hframe, -⟩ := frameOutputsUnderTheGate s hok
    rw [hframe, Frame.getLsbD_toWord _ _ _ hj]
  · intro hok
    rw [gateHidesTheBuffer s hok]

/-- Settles O34: each row is the one its bytes select, so it answers their class. -/
theorem dispatchRowsAnswerTheirClass : Obligations.DispatchRowsAnswerTheirClass := by
  refine ⟨rfl, fun s f => ⟨?data, ?reportingMode, ?deviceId, ?workingMode, ?firmware,
    ?workingPeriod, ?badType⟩⟩
  case data =>
    exact fun hcmd => row_answers s (decodeFrame_of_data hcmd) (decode10_of_data hcmd)
  case badType =>
    exact fun hdata hstatus =>
      row_answers s (decodeFrame_of_other hdata hstatus) (decode10_of_other hdata hstatus)
  all_goals
    intro hcmd hsub
    exact row_answers s (by rw [decodeFrame_of_status hcmd, hsub]; rfl)
      (by rw [decode10_of_status hcmd, hsub]; rfl)

/-- Settles O35: the excluded subtypes are those of the status rows before the last. -/
theorem unlistedSubtypeGetsAFailureClass : Obligations.UnlistedSubtypeGetsAFailureClass := by
  refine ⟨fun s f hcmd h2 h5 h6 h7 h8 => ?_, statusOtherClass_ne_success⟩
  obtain ⟨hrow, hclass⟩ := decode_of_unlisted hcmd h2 h5 h6 h7 h8
  exact row_answers s hrow hclass

/-- Settles O40. -/
theorem readingIsATenth : Obligations.ReadingIsATenth := by
  refine ⟨fun r => div_mul_cancel₀ _ (by decide), ?_⟩
  have htap : pm25Tap ⟨0xAA, 0xC0, 0x68, 0x00, 0, 0, 0, 0, 0x68, 0xAB⟩ = 104 := rfl
  rw [htap]
  rfl

end

section
/-! SUPPORT. Requests and fault entry as clock steps: lines 2 and 4 to 6 of R94, the result of a raised fault
at the ports (R228), and what a cancellation leaves with the upstream (R213 to R215, R223, R225). -/

namespace Sys2Proof.Machine

/-- Line 4 of R94. -/
theorem selectEvent_busy_cancel {st : FsmState} {p : Pins} (hst : st ≠ .idle) (hrst : p.rst = false)
    (hcan : p.cancel = true) : selectEvent st p = .cancel := by
  simp [selectEvent, hst, hrst, hcan]

/-- Line 5 of R94. -/
theorem selectEvent_busy_ioerr {st : FsmState} {p : Pins} (hst : st ≠ .idle) (hrst : p.rst = false)
    (hcan : p.cancel = false) (hin : p.inValid = true) (herr : p.inErr = true) :
    selectEvent st p = .ioerr p.inErrinfo := by
  simp [selectEvent, hst, hrst, hcan, hin, herr]

/-- Line 6 of R94. -/
theorem selectEvent_busy_zero {st : FsmState} {p : Pins} (hst : st ≠ .idle) (hrst : p.rst = false)
    (hcan : p.cancel = false) (hin : p.inValid = true) (herr : p.inErr = false)
    (hzero : p.inZero = true) : selectEvent st p = .zero := by
  simp [selectEvent, hst, hrst, hcan, hin, herr, hzero]

/-- The handshake of R41 takes nothing on a cancellation. -/
theorem streamAccepted_cancel (st : FsmState) {p : Pins} (hcan : p.cancel = true) :
    streamAccepted st p = false := by
  simp [streamAccepted, hcan]

/-- Busy, with neither a reset nor a cancellation, the block takes what is offered (R41). -/
theorem streamAccepted_busy {st : FsmState} {p : Pins} (hst : st ≠ .idle) (hrst : p.rst = false)
    (hcan : p.cancel = false) (hin : p.inValid = true) : streamAccepted st p = true := by
  simp [streamAccepted, hst, hrst, hcan, hin]

/-- Idle with a result the block announces it and reads nothing (R32). -/
theorem handshake_of_result {s : State} (hst : s.st = .idle) (hrs : s.rstat ≠ .none) :
    s.outputs.done = true ∧ s.outputs.busy = false ∧ s.outputs.inReady = false := by
  simp [State.outputs, State.done, State.busy, hst, hrs]

/-- After a fault only the handshake and the result are driven; the gate is closed (R33, R228). -/
theorem outputs_raise (s : State) {code : RStat} (info : Byte) (hnone : code ≠ .none)
    (hok : code ≠ .ok) :
    (s.raise code info).outputs =
      { reqReady := true, inReady := false, busy := false, done := true, rstat := code
        cnt := s.idx.castSucc, errinfo := info, frame := 0, csCalc := 0, csumValid := false
        tailValid := false, headOk := false, cmdOk := false, frameValid := false
        dataValid := false, dclass := .short, subtype := 0, pm25Raw := 0, pm10Raw := 0
        devId := 0 } := by
  obtain ⟨hdone, hbusy, hready⟩ := handshake_of_result (s := s.raise code info) rfl hnone
  rw [gateHidesTheBuffer (s.raise code info) hok, hdone, hbusy, hready]
  rfl

/-- A clock step in `IDLE` with a request is `REQ` and leaves the stream (R132, R212). -/
theorem step_of_request {s : State} {k : Tick} (hclk : s.clocks k) (hst : s.st = .idle)
    (hrst : k.rst = false) (hreq : k.reqValid = true) :
    step s = .next (effect { s with agenda := s.agenda.tail } (.req k.reqBuflen)) := by
  have hsel : selectEvent s.st (s.pins k) = .req k.reqBuflen := by
    rw [hst, selectEvent_idle_req (by simpa using hrst) (by simpa using hreq), State.pins_reqBuflen]
  rw [step_of_clocks hclk, hsel, State.streamAfter_idle k hst]
  rfl

/-- A busy clock step with `cancel` is the cancellation and leaves the stream (R215, R225). -/
theorem step_of_cancel {s : State} {k : Tick} (hclk : s.clocks k) (hst : s.st ≠ .idle)
    (hrst : k.rst = false) (hcan : k.cancel = true) :
    step s = .next ({ s with agenda := s.agenda.tail }.raise .canceled 0) := by
  have hsel : selectEvent s.st (s.pins k) = .cancel :=
    selectEvent_busy_cancel hst (by simpa using hrst) (by simpa using hcan)
  have hup : s.streamAfter k = s.upstream := by
    simp [State.streamAfter, streamAccepted_cancel s.st (p := s.pins k) (by simpa using hcan)]
  rw [step_of_clocks hclk, hsel, hup]
  rfl

end Sys2Proof.Machine

open Sys2Proof Sys2Proof.Machine

/-- Settles O15: the request starts a head search with `idx` 0, which the cancellation then counts. -/
theorem cancelHeldAcrossARequest : Obligations.CancelHeldAcrossARequest := by
  intro s t₁ t₂ rest hst hag hrst₁ hreq hlen _ hrst₂ hcan
  have hfirst : step s = .next { s with agenda := .clock t₂ :: rest }.startRequest := by
    rw [step_of_request (.inl (by rw [hag]; rfl)) hst hrst₁ hreq, effect_req, tooShort_of_le hlen, hag]
    rfl
  have hsecond := step_of_cancel (s := { s with agenda := .clock t₂ :: rest }.startRequest)
    (.inl rfl) (by simp) hrst₂ hcan
  have hrun : runSteps 2 s = .next ({ s with agenda := rest }.startRequest.raise .canceled 0) :=
    (runSteps_succ_of_step hfirst).trans (runSteps_succ_of_step hsecond)
  exact ⟨⟨_, hfirst, rfl, rfl⟩, _, hrun, rfl, rfl, rfl, rfl, rfl⟩

/-- Settles O4: `REQ` is decoded as in R132, and its short arm stays in `IDLE`. -/
theorem shortRequestFaultsBeforeReading : Obligations.ShortRequestFaultsBeforeReading := by
  obtain ⟨hdecoded, -⟩ := requestStartsHeadSearch
  refine ⟨fun s n hst hn => ?_, hdecoded⟩
  have hexec : exec (.req n) s = .next s.rejectRequest := by
    rw [exec_accepted rfl (by simp [accepts, hst]), effect_req, if_pos (tooShort_of_lt hn)]
  have hidle : s.rejectRequest.st = .idle := hst
  obtain ⟨hdone, hbusy, hready⟩ := handshake_of_result hidle (by simp)
  exact ⟨_, hexec, rfl, hdone, hbusy, hready, by rw [hidle]; exact streamAccepted_idle⟩

/-- Settles O13: the three events are lines 4 to 6 of R94, and each is accepted while busy. -/
theorem faultEntryRecordsAndEndsTheRequest : Obligations.FaultEntryRecordsAndEndsTheRequest := by
  refine ⟨fun st idx p hst hrst => ⟨?cancel, ?ioerr, ?zero⟩, ?entry⟩
  case cancel =>
    intro hcan
    rw [decode, selectEvent_busy_cancel hst hrst hcan]
    exact ⟨rfl, streamAccepted_cancel st hcan⟩
  case ioerr =>
    intro hcan hin herr
    rw [decode, selectEvent_busy_ioerr hst hrst hcan hin herr]
    exact ⟨rfl, streamAccepted_busy hst hrst hcan hin⟩
  case zero =>
    intro hcan hin herr hzero
    rw [decode, selectEvent_busy_zero hst hrst hcan hin herr hzero]
    exact ⟨rfl, streamAccepted_busy hst hrst hcan hin⟩
  case entry =>
    intro s i code info hst h
    have hbusy : (s.st != .idle) = true := bne_iff_ne.mpr hst
    obtain ⟨rfl, rfl, rfl⟩ | ⟨rfl, rfl⟩ | ⟨rfl, rfl, rfl⟩ := h
    all_goals exact ⟨_, exec_accepted rfl hbusy, rfl, outputs_raise s _ nofun nofun⟩

/-- Settles O14: `cancel` selects the event and closes the handshake, whatever the stream offers. -/
theorem cancelLeavesTheOfferedEventUpstream : Obligations.CancelLeavesTheOfferedEventUpstream := by
  intro s t hclk hst hrst hcan
  exact ⟨_, step_of_cancel hclk hst hrst hcan, rfl, rfl, rfl, rfl, rfl, rfl⟩

end

section
/-! SUPPORT. Reset as an event, as an operation and as a clock step: line 1 of R94, R250, and what it leaves
with the upstream (R252). -/

namespace Sys2Proof.Machine

/-- Line 1 of R94: nothing else at the ports and no state stands before a reset. -/
theorem selectEvent_rst (st : FsmState) {p : Pins} (hrst : p.rst = true) :
    selectEvent st p = .rst := by
  simp [selectEvent, hrst]

/-- The handshake of R41 takes nothing on a reset. -/
theorem streamAccepted_rst (st : FsmState) {p : Pins} (hrst : p.rst = true) :
    streamAccepted st p = false := by
  simp [streamAccepted, hrst]

/-- Every state accepts `RST` (R93). -/
theorem exec_rst (s : State) : exec .rst s = .next s.resetRegisters :=
  exec_accepted rfl rfl

theorem resetRegisters_idem (s : State) :
    s.resetRegisters.resetRegisters = s.resetRegisters := rfl

/-- After a reset the block waits for a request and has no result to announce (R49, R250). -/
theorem handshake_resetRegisters (s : State) :
    s.resetRegisters.outputs.done = false ∧ s.resetRegisters.outputs.busy = false ∧
      s.resetRegisters.outputs.reqReady = true ∧ s.resetRegisters.outputs.inReady = false := by
  rw [outputs_of_sameRegisters (resetRegisters_sameRegisters s)]
  exact ⟨rfl, rfl, rfl, rfl⟩

/-- A clock step with `rst` is the reset and leaves the stream (R250, R252). -/
theorem step_of_rst {s : State} {k : Tick} (hclk : s.clocks k) (hrst : k.rst = true) :
    step s = .next { s with agenda := s.agenda.tail }.resetRegisters := by
  have hpin : (s.pins k).rst = true := by rw [State.pins_rst, hrst]
  have hup : s.streamAfter k = s.upstream := by
    simp [State.streamAfter, streamAccepted_rst s.st hpin]
  rw [step_of_clocks hclk, selectEvent_rst s.st hpin, hup]
  rfl

end Sys2Proof.Machine

open Sys2Proof Sys2Proof.Machine

/-- Settles O2: `rst` stands first in the selection and closes the handshake, and what it leaves does not
depend on the registers before it. -/
theorem rstResetsEveryRegister : Obligations.RstResetsEveryRegister := by
  refine ⟨fun st idx p hrst => ⟨?selected, streamAccepted_rst st hrst⟩, fun s => ?reset⟩
  case selected =>
    rw [decode, selectEvent_rst st hrst]
    rfl
  case reset =>
    have hagain : exec .rst s.resetRegisters = .next s.resetRegisters := by
      rw [exec_rst, resetRegisters_idem]
    exact ⟨s.resetRegisters, exec_rst s, rfl, hagain, handshake_resetRegisters s⟩

/-- Settles O16: the reset step takes its cue alone. -/
theorem resetStepLeavesTheStream : Obligations.ResetStepLeavesTheStream := by
  intro s k hclk hrst
  exact ⟨_, step_of_rst hclk hrst, resetRegisters_sameRegisters _, State.resetRegisters_upstream _⟩

end
